-- ==== Sys2Proof/Word.lean ====
section
/-! DEFINITION. The words of the lzpi CORE and the operand types its operations name.
Widths: spec/00_scope.md R5 to R7; 30_encoding.md R82 to R93; 47_driver_and_host.md R283, R284. -/

namespace Sys2Proof

/-- An 8-bit value: a wire byte, a memory cell, `c`, `ctl`, `cursor` (R7). -/
abbrev Byte := BitVec 8

/-- A host register word (R37, R38). -/
abbrev Word := BitVec 32

/-- A window cursor: a `CURSOR_BITS`-bit virtual index whose arithmetic wraps (R7, R22; the width is
log 9). -/
abbrev Cursor := BitVec 64

/-- A platform error number, `ERRNO_BITS` = 16 wide (R5, R41). -/
abbrev Errno := BitVec 16

/-- A `TOK` register (R30, R93): `kind` is false for a literal and true for a back-reference, `a` is the
literal or the offset field, `b` the length field (any value for a literal). -/
structure TokReg where
  kind : Bool
  a : Byte
  b : Byte
deriving DecidableEq, Repr, Inhabited

/-- The two engines' selector, `CTRL.MODE` (R37): bit value 0 or 1. -/
inductive Engine where
  /-- `MODE` = 0. -/
  | compress
  /-- `MODE` = 1. -/
  | decompress
deriving DecidableEq, Repr

/-- `STATUS.STATE` (R39). -/
inductive RunState where
  /-- 0: no run since reset. -/
  | idle
  /-- 1: a run is in progress. -/
  | busy
  /-- 2: the last run ended cleanly. -/
  | done
  /-- 3: the last run was aborted by an error. -/
  | error
deriving DecidableEq, Repr

/-- The four error classes of R300. `STATUS.ERRCLASS` holds one of them or NONE (R40). -/
inductive RunError where
  /-- 1: the input channel answered `Err`. -/
  | readError
  /-- 2: the output channel answered `Err`. -/
  | writeError
  /-- 3: `End` where the decoder needs a byte. -/
  | truncated
  /-- 4: a back-reference before the first output byte. -/
  | badReference
deriving DecidableEq, Repr

/-- Who called Flush, and so where the controller goes on after it (R210, R214). -/
inductive FlushSite where
  /-- Accept, which still holds the token it will store. -/
  | accept (tok : TokReg)
  /-- Finish, the end of a compress run. -/
  | finish
deriving DecidableEq, Repr

/-- Who called Put (R243, R245). -/
inductive PutSite where
  /-- A literal token. -/
  | literal
  /-- A copy, whose `src` names the cell just read and which has `left` bytes still to go after this one
  (R284: "with the copy's remaining count and `src` held"). -/
  | copy (src : Byte) (left : Nat)
deriving DecidableEq, Repr

/-- Who called Emit: Flush for the byte with index `k` of a group, or Put (R215). -/
inductive EmitSite where
  | flush (k : Nat) (site : FlushSite)
  | put (site : PutSite)
deriving DecidableEq, Repr

/-- Who called NeedByte (R248): the token's first byte after a control byte, or a back-reference's second
byte, with its first byte held. -/
inductive NeedSite where
  | firstByte
  | lengthByte (off : Byte)
deriving DecidableEq, Repr

/-- What a channel transaction outstanding at a reset did: the platform's answer, `RESET_INFLIGHT`
(R341, R5; log 11). -/
structure Inflight where
  /-- The input byte that an outstanding `InRead` consumed, if it consumed one. -/
  inByte : Option Byte
  /-- Whether the byte of an outstanding `OutWrite` was delivered. -/
  outDelivered : Bool
deriving DecidableEq, Repr

/-- An answer to `InRead` (R9). -/
inductive InAnswer where
  | byte (b : Byte)
  | endOfInput
  | err (e : Errno)
deriving DecidableEq, Repr

/-- An answer to `OutWrite` (R9). -/
inductive OutAnswer where
  | ok
  | err (e : Errno)
deriving DecidableEq, Repr

/-- The direction of a host access, with the word written. -/
inductive HostDir where
  | read
  | write (w : Word)
deriving DecidableEq, Repr

/-- A host access at `REG_BASE + offset`, `size` bytes wide (R66, R280). -/
structure HostAccess where
  offset : Nat
  size : Nat
  dir : HostDir
deriving DecidableEq, Repr

/-- One move of an agent outside the controller (R270, R283; log 1). -/
inductive Move where
  | input (a : InAnswer)
  | output (a : OutAnswer)
  | host (a : HostAccess)
  | reset (inflight : Inflight)
deriving DecidableEq, Repr

end Sys2Proof
end

