-- ==== Sys2Proof/Config.lean ====
section
/-! DEFINITION. The parameters of the CORE (spec/00_scope.md R5) and its free values
(spec/93_implementation_defined.md: the entries whose treatment is "any value" or "parameter"). -/

namespace Sys2Proof.Config

/-- `W`, the window capacity: 256, fixed together with every 8-bit width (R5, R344). -/
abbrev W : Nat := 256

/-- `BUF`, the size of the physical window: 2W cells (R5). -/
abbrev buf : Nat := 512

/-- `GROUP`, the tokens of a full group (R5). -/
abbrev group : Nat := 8

/-- `GENERIC_IO_ERROR`, a parameter: any number but 0, since an error's number is never 0 (R5, R306, 93 I21;
log 8). It is one more than `genericIoCode`, of which nothing is known. -/
opaque genericIoCode : Fin 65535

def genericIoError : Errno := BitVec.ofNat 16 (genericIoCode.val + 1)

/-- `REG_BASE`: left OPEN by the spec, so nothing is known of it (R5, R68; log 10). -/
opaque regBase : Nat

/-- The host register `CTRL`'s and `STATUS`'s offsets from `REG_BASE` (R68). -/
abbrev ctrlOffset : Nat := 0
abbrev statusOffset : Nat := 4

/-- The bus address of an access at an offset (R68). -/
def busAddress (offset : Nat) : Nat := regBase + offset

/-- Free values, one per draw: nothing is known of any of them (93 I3, I6; log 6, log 7). -/
opaque freeByte : Nat → Byte
opaque freeCursor : Nat → Cursor
opaque freeFlag : Nat → Bool
opaque freeCount : Nat → Fin 9
opaque freeFill : Nat → Fin 257
opaque freeTok : Nat → TokReg

end Sys2Proof.Config
end

