-- ==== Sys2Proof/Syntax.lean ====
section
/-! DEFINITION. The instructions: one constructor per row of spec/opcode_table.json, in the table's order.
The wire forms and the host command words have encodings; the internal operations have none
(spec/30_encoding.md R94). Operands: each operation's rule, and log 21 for the call sites. -/

namespace Sys2Proof

inductive Instr where
  /-- CTRL_BYTE: the control byte `k` of a group (R82, R241). -/
  | ctrlByte (k : Byte)
  /-- LIT: the literal token `v` (R84, R243). -/
  | lit (v : Byte)
  /-- BREF: the back-reference token, offset field then length field (R85, R245). -/
  | bref (off lm1 : Byte)
  /-- CMD_COMPRESS: a CTRL write with `START` 1 and `MODE` 0; `r` is bits 31:2, ignored (R91, R281). -/
  | cmdCompress (r : BitVec 30)
  /-- CMD_DECOMPRESS: a CTRL write with `START` 1 and `MODE` 1 (R91, R275, R281). -/
  | cmdDecompress (r : BitVec 30)
  /-- CMD_SETMODE: a CTRL write with `START` 0 and `MODE` = `m` (R91, R276). -/
  | cmdSetMode (r : BitVec 30) (m : BitVec 1)
  /-- RD_CTRL: a word read of `REG_BASE + 0x0` (R278). -/
  | rdCtrl
  /-- RD_STATUS: a word read of `REG_BASE + 0x4` (R279). -/
  | rdStatus
  /-- WinInit (R130). -/
  | winInit
  /-- Fill (R131). -/
  | fill
  /-- Shift(n) (R134). -/
  | shift (n : Nat)
  /-- BuildTable (R151). -/
  | buildTable
  /-- Search (R170). -/
  | search
  /-- Policy(o, len) (R190). -/
  | policy (o : Cursor) (len : Nat)
  /-- Accept(tok) (R210). -/
  | accept (tok : TokReg)
  /-- Flush, called from `site` (R213). -/
  | flush (site : FlushSite)
  /-- Finish (R214). -/
  | finish
  /-- Emit(b), called from `site` (R215). -/
  | emit (b : Byte) (site : EmitSite)
  /-- CompressRun (R271). -/
  | compressRun
  /-- DecRun (R240). -/
  | decRun
  /-- Put(b), called from `site` (R243). -/
  | put (b : Byte) (site : PutSite)
  /-- Copy(off, lm1) (R245). -/
  | copy (off lm1 : Byte)
  /-- NeedByte, called from `site` (R248). -/
  | needByte (site : NeedSite)
  /-- DecompressRun (R275). -/
  | decompressRun
  /-- Abort: `raise E(e)` (R301). -/
  | abort (err : RunError) (e : Errno)
  /-- Reset (R340, R341). -/
  | reset (inflight : Inflight)
deriving DecidableEq, Repr

end Sys2Proof
end

