-- ==== Sys2Proof/WellFormed.lean ====
section
/-! DEFINITION. Which instructions are well formed: the operand ranges the spec's rules state. Every wire form
and every host word is well formed (spec/30_encoding.md R89, R91); the internal operations carry the ranges
of their rules. -/

namespace Sys2Proof

/-- R284: the index of a byte in a group. A group has at most 1 + 8 + 8 bytes (R213). -/
def FlushSite.indexOk (k : Nat) : Bool := k < 17

/-- R245: at most 255 bytes of a copy are left after its first. -/
def PutSite.wf : PutSite → Bool
  | .literal => true
  | .copy _ left => left < 256

def EmitSite.wf : EmitSite → Bool
  | .flush k _ => FlushSite.indexOk k
  | .put site => site.wf

/-- The check, one arm per constructor. -/
def Instr.wf : Instr → Bool
  | .ctrlByte _ => true
  | .lit _ => true
  | .bref _ _ => true
  | .cmdCompress _ => true
  | .cmdDecompress _ => true
  | .cmdSetMode _ _ => true
  | .rdCtrl => true
  | .rdStatus => true
  | .winInit => true
  | .fill => true
  -- R134: "requires 1 <= n <= size(la)", and size(la) is at most W (R24).
  | .shift n => decide (1 ≤ n ∧ n ≤ Config.W)
  | .buildTable => true
  | .search => true
  -- R177: a length is at most size(la) ≤ W, and an offset lies in [0, D] with D ≤ W.
  | .policy o len => decide (o.toNat ≤ Config.W ∧ len ≤ Config.W)
  | .accept _ => true
  | .flush _ => true
  | .finish => true
  | .emit _ site => site.wf
  | .compressRun => true
  | .decRun => true
  | .put _ site => site.wf
  | .copy _ _ => true
  | .needByte _ => true
  | .decompressRun => true
  -- R306: TRUNCATED and BAD_REFERENCE always record GENERIC_IO_ERROR.
  | .abort .truncated e => decide (e = Config.genericIoError)
  | .abort .badReference e => decide (e = Config.genericIoError)
  | .abort .readError _ => true
  | .abort .writeError _ => true
  | .reset _ => true

abbrev Instr.WellFormed (i : Instr) : Prop := i.wf = true

end Sys2Proof
end

