-- ==== Sys2Proof/Decode.lean ====
section
/-! DEFINITION. The decoders of the two encoded spaces (spec/30_encoding.md): the compressed stream and the host
accesses, each total and rejecting by name; after them the encoder, the framing of whole token sequences
(spec/45_encoder.md R216, R217) and the notation of R95. -/

namespace Sys2Proof

/-- Why a decoder gives no instruction. -/
inductive Reject where
  /-- The stream holds no byte here (R247). -/
  | noByte
  /-- A back-reference's first byte `off` is here and its second is not yet (R88, R248). -/
  | needLength (off : Byte)
  /-- The stream ends straight after a control byte (R81, R248). -/
  | needFirstByte
  /-- A host access that is not a whole 32-bit word (R66). -/
  | notAWord
  /-- A host access at an offset other than 0 or 4 (R66). -/
  | noSuchRegister
  /-- A host write of STATUS: no instruction, and ignored (R279). -/
  | statusWrite
  /-- An internal operation: it has no encoding (R94). -/
  | unencoded
deriving DecidableEq, Repr

/-! ## The compressed stream -/

/-- The kind flag of slot `s` in a control byte: bit `7 - s` (R82, R242). -/
def kindBit (ctl : Byte) (s : Nat) : Bool := ctl.getLsbD (7 - s)

/-- Where the deframer stands in its group: the registers `slot` and `ctl` (R94). -/
structure WirePos where
  slot : Fin 9
  ctl : Byte
deriving DecidableEq, Repr

/-- A group boundary: a control byte comes next (R36, R241). -/
def WirePos.atBoundary (p : WirePos) : Bool := decide (p.slot.val = 8)

/-- R88, R94: one wire form from the front of the bytes, and the bytes after it. -/
def decodeWire (p : WirePos) : List Byte → Except Reject (Instr × List Byte)
  | [] => .error .noByte
  | x :: rest =>
    if p.atBoundary then .ok (.ctrlByte x, rest)
    else if kindBit p.ctl p.slot.val then
      match rest with
      | [] => .error (.needLength x)
      | y :: rest' => .ok (.bref x y, rest')
    else .ok (.lit x, rest)

/-- The slot after a token (R240: `slot <- slot + 1`, from a value in [0, 7]). -/
def nextSlot (s : Fin 9) : Fin 9 := Fin.ofNat 9 (s.val + 1)

/-- Where the deframer stands after a wire form (R240, R241). -/
def WirePos.after (p : WirePos) : Instr → WirePos
  | .ctrlByte k => ⟨0, k⟩
  | _ => ⟨nextSlot p.slot, p.ctl⟩

/-- R80, R81: a whole stream as its wire forms; `fuel` bounds their number. -/
def decodeStreamFuel : Nat → WirePos → List Byte → Except Reject (List Instr)
  | 0, _, bs => if bs.isEmpty then .ok [] else .error .noByte
  | fuel + 1, p, bs =>
    if bs.isEmpty then .ok []
    else
      match decodeWire p bs with
      | .error r => .error r
      | .ok (i, rest) =>
        if p.atBoundary && rest.isEmpty then .error .needFirstByte
        else
          match decodeStreamFuel fuel (p.after i) rest with
          | .error r => .error r
          | .ok is => .ok (i :: is)

/-- The position at which a stream starts (R45: `slot` 8, `ctl` 0). -/
def WirePos.start : WirePos := ⟨8, 0⟩

def decodeStream (bs : List Byte) : Except Reject (List Instr) :=
  decodeStreamFuel bs.length WirePos.start bs

/-! ## The host accesses -/

/-- R91: the command a word written to CTRL is; bits 31:2 are carried along and ignored. -/
def decodeCtrlWrite (w : Word) : Instr :=
  if w.extractLsb' 0 1 = 1 then
    if w.extractLsb' 1 1 = 1 then .cmdDecompress (w.extractLsb' 2 30) else .cmdCompress (w.extractLsb' 2 30)
  else .cmdSetMode (w.extractLsb' 2 30) (w.extractLsb' 1 1)

/-- R66, R94: whole words at offset 0 or 4, and nothing else. -/
def decodeHost (a : HostAccess) : Except Reject Instr :=
  if a.size ≠ 4 then .error .notAWord
  else if a.offset = Config.ctrlOffset then
    match a.dir with
    | .write w => .ok (decodeCtrlWrite w)
    | .read => .ok .rdCtrl
  else if a.offset = Config.statusOffset then
    match a.dir with
    | .write _ => .error .statusWrite
    | .read => .ok .rdStatus
  else .error .noSuchRegister

/-! ## One decoder over both, and the encoder -/

/-- What the CORE is given for one instruction: bytes of the stream, or a host access. -/
inductive Encoded where
  | wire (bs : List Byte)
  | access (a : HostAccess)
  | unencoded
deriving DecidableEq, Repr

/-- The decoder: total, rejecting by name. A wire form must use up its bytes. -/
def decode (p : WirePos) : Encoded → Except Reject Instr
  | .wire bs =>
    match decodeWire p bs with
    | .error r => .error r
    | .ok (i, rest) => if rest.isEmpty then .ok i else .error .noByte
  | .access a => decodeHost a
  | .unencoded => .error .unencoded

/-- R91: the CTRL write word with the reserved bits `r`, `MODE` and `START`. -/
def ctrlWriteWord (r : BitVec 30) (mode start : BitVec 1) : Word :=
  (r.setWidth 32 <<< 2) ||| (mode.setWidth 32 <<< 1) ||| start.setWidth 32

def ctrlWrite (w : Word) : HostAccess := ⟨Config.ctrlOffset, 4, .write w⟩

/-- The encoder, one arm per constructor: R82, R84, R85 for the wire forms, R91 and R94 for the host forms. -/
def encode : Instr → Encoded
  | .ctrlByte k => .wire [k]
  | .lit v => .wire [v]
  | .bref off lm1 => .wire [off, lm1]
  | .cmdCompress r => .access (ctrlWrite (ctrlWriteWord r 0 1))
  | .cmdDecompress r => .access (ctrlWrite (ctrlWriteWord r 1 1))
  | .cmdSetMode r m => .access (ctrlWrite (ctrlWriteWord r m 0))
  | .rdCtrl => .access ⟨Config.ctrlOffset, 4, .read⟩
  | .rdStatus => .access ⟨Config.statusOffset, 4, .read⟩
  | .winInit => .unencoded
  | .fill => .unencoded
  | .shift _ => .unencoded
  | .buildTable => .unencoded
  | .search => .unencoded
  | .policy _ _ => .unencoded
  | .accept _ => .unencoded
  | .flush _ => .unencoded
  | .finish => .unencoded
  | .emit _ _ => .unencoded
  | .compressRun => .unencoded
  | .decRun => .unencoded
  | .put _ _ => .unencoded
  | .copy _ _ => .unencoded
  | .needByte _ => .unencoded
  | .decompressRun => .unencoded
  | .abort _ _ => .unencoded
  | .reset _ => .unencoded

/-- The positions of the stream at which a form stands (R94): a control byte at a group boundary, a literal at
a slot whose control bit is 0, a back-reference at one whose bit is 1. A host form does not depend on the
position, and an internal operation has none. -/
def Instr.standsAt (p : WirePos) : Instr → Bool
  | .ctrlByte _ => p.atBoundary
  | .lit _ => !p.atBoundary && !kindBit p.ctl p.slot.val
  | .bref _ _ => !p.atBoundary && kindBit p.ctl p.slot.val
  | .cmdCompress _ => true
  | .cmdDecompress _ => true
  | .cmdSetMode _ _ => true
  | .rdCtrl => true
  | .rdStatus => true
  | .winInit => false
  | .fill => false
  | .shift _ => false
  | .buildTable => false
  | .search => false
  | .policy _ _ => false
  | .accept _ => false
  | .flush _ => false
  | .finish => false
  | .emit _ _ => false
  | .compressRun => false
  | .decRun => false
  | .put _ _ => false
  | .copy _ _ => false
  | .needByte _ => false
  | .decompressRun => false
  | .abort _ _ => false
  | .reset _ => false

/-! ## Framing of token sequences -/

/-- A token's wire bytes (R93): `a` alone, or `a` then `b`. -/
def TokReg.wire (t : TokReg) : List Byte := if t.kind then [t.a, t.b] else [t.a]

/-- The wire form of a token (R84, R85). -/
def TokReg.instr (t : TokReg) : Instr := if t.kind then .bref t.a t.b else .lit t.a

/-- R212: the control bit of slot `s` set in `c`. -/
def setKindBit (c : Byte) (s : Nat) : Byte := c ||| (1#8 <<< (7 - s))

/-- The control byte of the tokens from slot `s` on, over the bits already in `c` (R82, R83, R212). -/
def controlByteFrom (c : Byte) (s : Nat) : List TokReg → Byte
  | [] => c
  | t :: ts => controlByteFrom (if t.kind then setKindBit c s else c) (s + 1) ts

def controlByte (ts : List TokReg) : Byte := controlByteFrom 0 0 ts

/-- A group's bytes: the control byte, then every token's bytes (R81, R213). -/
def groupBytes (ts : List TokReg) : List Byte := controlByte ts :: ts.flatMap TokReg.wire

/-- A group's wire forms. -/
def groupInstrs (ts : List TokReg) : List Instr := .ctrlByte (controlByte ts) :: ts.map TokReg.instr

/-- A token sequence cut into groups of 8, the last one maybe shorter (R216, R217); `fuel` bounds the groups. -/
def groupsFuel : Nat → List TokReg → List (List TokReg)
  | 0, _ => []
  | fuel + 1, ts => if ts.isEmpty then [] else ts.take 8 :: groupsFuel fuel (ts.drop 8)

def groupsOf (ts : List TokReg) : List (List TokReg) := groupsFuel ts.length ts

/-- R217: the stream of a token sequence. -/
def frameTokens (ts : List TokReg) : List Byte := (groupsOf ts).flatMap groupBytes

/-- The wire forms of that stream, in order. -/
def frameInstrs (ts : List TokReg) : List Instr := (groupsOf ts).flatMap groupInstrs

/-! ## The notation of R95 -/

/-- A line `G <ctl> : <tok>, ...`. -/
structure GroupLine where
  ctl : Byte
  toks : List TokReg
deriving DecidableEq, Repr

/-- R95: the control byte of a line is redundant with its tokens, of which there are 1 to 8. -/
def GroupLine.wf (g : GroupLine) : Bool :=
  decide (1 ≤ g.toks.length ∧ g.toks.length ≤ 8 ∧ g.ctl = controlByte g.toks)

/-- The tokens `LIT xx` and `REF off=xx lm1=yy`. -/
def litForm (v : Byte) : TokReg := ⟨false, v, 0⟩
def refForm (off lm1 : Byte) : TokReg := ⟨true, off, lm1⟩

/-- `COPY dist=d len=r`, with 1 ≤ d, r ≤ 256. -/
def copyForm (d r : Nat) : TokReg := refForm (BitVec.ofNat 8 (d - 1)) (BitVec.ofNat 8 (r - 1))

/-- `LITS "text"`. -/
def litsForm (text : List Byte) : List TokReg := text.map litForm

/-! ## The rows' words -/

/-- Byte `k` of a word, bit 0 the least significant bit of byte 0. -/
def wordByte (w k : Nat) : Byte := BitVec.ofNat 8 (w / 256 ^ k)

/-- The instruction the decoder reads from a table row's bits (log 20): 8 bits are a stream's first byte, 16
bits a back-reference token, offset byte first, at slot 0 of a group whose first control bit is set, and 32
bits a word written to CTRL. -/
def decodeTableWord (nbits w : Nat) : Option Instr :=
  if nbits = 8 then (decode WirePos.start (.wire [wordByte w 0])).toOption
  else if nbits = 16 then (decode ⟨0, 0x80⟩ (.wire [wordByte w 0, wordByte w 1])).toOption
  else if nbits = 32 then (decode WirePos.start (.access (ctrlWrite (BitVec.ofNat 32 w)))).toOption
  else none

end Sys2Proof
end

