-- ==== Sys2Proof/Machine/State.lean ====
section
/-! DEFINITION. The state of the lzpi CORE (spec/10_state.md R20 to R46), its reset value, and the reasons a
step can stop. The fields after `phase` are the outside world's, held as plain data (log 1, log 19). -/

namespace Sys2Proof.Machine

/-- An internal memory: (index, byte) pairs, indexes strictly rising; an unlisted cell has not been written
and has no value (R63; log 4). -/
abbrev Memory := List Host.Cell

/-- The program points of R284 (log 12). A point that waits on an `OutWrite` holds the byte it offers. -/
inductive Phase where
  /-- IDLE: no run since reset. -/
  | idle
  /-- C_READ: in Fill, waiting on `InRead`. -/
  | cRead
  /-- C_WRITE: in a Flush called from `site`, waiting on the `OutWrite` of the group's byte `k`, which is `b`. -/
  | cWrite (b : Byte) (k : Nat) (site : FlushSite)
  /-- D_TOKEN: waiting on the first `InRead` of a token. -/
  | dToken
  /-- D_NEED: waiting in NeedByte. -/
  | dNeed (site : NeedSite)
  /-- D_WRITE: waiting on the `OutWrite` of `b` in Put. -/
  | dWrite (b : Byte) (site : PutSite)
  /-- DONE. -/
  | done
  /-- ERROR. -/
  | error
deriving DecidableEq, Repr

/-- What Fill returns (R133). -/
inductive FillResult where
  | ok
  | eof
deriving DecidableEq, Repr

/-- What an internal operation returned (R10); `none`: no operation that returns a value has been run on its
own since reset (log 19). -/
inductive Result where
  | none
  | fill (r : FillResult)
  | search (o : Cursor) (len : Nat)
  | policy (tok : TokReg)
deriving DecidableEq, Repr

structure State where
  /-- `BF` (R21). -/
  bf : Memory
  /-- `dict.tl` (R22). -/
  dictTl : Cursor
  /-- `dict.hd`, of which `la.tl` is another name (R22, R23). -/
  dictHd : Cursor
  /-- `la.hd` (R22). -/
  laHd : Cursor
  /-- `eof_seen` (R25). -/
  eofSeen : Bool
  /-- `T` (R26). -/
  t : Memory
  /-- `n`, a 4-bit register holding a value in [0, 8] (R28; log 13). -/
  n : Fin 9
  /-- `c` (R29). -/
  c : Byte
  /-- `TOK[0..7]` (R30). -/
  tok : Vector TokReg 8
  /-- `RING` (R32). -/
  ring : Memory
  /-- `cursor` (R33). -/
  cursor : Byte
  /-- `filled`, a 9-bit register holding a value in [0, 256] (R34; log 13). -/
  filled : Fin 257
  /-- `ctl` (R35). -/
  ctl : Byte
  /-- `slot`, a 4-bit register holding a value in [0, 8] (R36; log 13). -/
  slot : Fin 9
  /-- `CTRL.MODE` (R37). -/
  mode : Engine
  /-- `STATUS.STATE` (R39). -/
  runState : RunState
  /-- `STATUS.ERRCLASS`; `none` is NONE (R40). -/
  errClass : Option RunError
  /-- `STATUS.ERRNO` (R41). -/
  errno : Errno
  /-- `phase` (R44, R284). -/
  phase : Phase
  /-- The moves of the channels and the host still to come, next one first (R270, R283; log 1). -/
  moves : List Move
  /-- The bytes the input channel delivered in this run (R71, R282; log 19). -/
  inTaken : List Byte
  /-- The bytes the output channel accepted in this run (R71, R282; log 19). -/
  outTaken : List Byte
  /-- The word the last host read returned (R278, R279; log 19). -/
  hostData : Option Word
  /-- What the last internal operation run on its own returned (R10; log 19). -/
  result : Result
  /-- How many free values have been drawn (log 6). -/
  draws : Nat
deriving DecidableEq, Repr

/-- Why a step stops. No run from reset reaches one of these: the spec's own errors are next states (R301). -/
inductive Fault where
  /-- A memory cell that nothing has written was read. Raised by BuildTable, Search, Policy and Put's copy.
  Safe: the spec leaves the cell's value open and says no rule reads it (R63, 93 I1, I2, I4; log 4). -/
  | readUnwritten
  /-- BuildTable met a lookahead longer than `T` (R24 forbids it). Safe. -/
  | noSuchCell
  /-- Shift(n) outside 1 ≤ n ≤ size(la) (R134, 92 D27; log 16). Safe. -/
  | shiftPrecondition
  /-- Flush with `n` = 0, which R213 requires not to be (log 16). Safe. -/
  | flushPrecondition
  /-- BuildTable's inner loop passed its bound (R151, R351; log 17). Safe. -/
  | tableOverrun
  /-- Search passed the bound of R179, so `T` is not the table of this lookahead (R154; log 17). Safe. -/
  | searchOverrun
  /-- The compress loop passed one token per lookahead byte (R196; log 17). Safe. -/
  | driverOverrun
deriving DecidableEq, Repr

/-- Why the machine gives a move or an instruction no meaning. -/
inductive Refusal where
  /-- An instruction the model has no meaning for, by its mnemonic. Raised by `exec` only. Safe. -/
  | notModelled (mnemonic : String)
  /-- A host access that is not a whole word at offset 0 or 4: the CORE refuses it, and `why` says what it is
  (R66, R280; log 14).
  Raised by the step. Safe. -/
  | rejected (why : Reject)
  /-- A channel answered with no transaction outstanding: the spec gives that no move (R283; log 15).
  Raised by the step. Safe. -/
  | unrequestedAnswer
deriving DecidableEq, Repr

/-- Right after a hardware reset: the reset column of R45 (R340), with TOK zeroed (log 5), the memories
unwritten (log 4), and nothing pending from outside (log 1, log 19). -/
def State.reset : State where
  bf := []
  dictTl := 0
  dictHd := 0
  laHd := 0
  eofSeen := false
  t := []
  n := 0
  c := 0
  tok := Vector.replicate 8 ⟨false, 0, 0⟩
  ring := []
  cursor := 0
  filled := 0
  ctl := 0
  slot := 8
  mode := .compress
  runState := .idle
  errClass := none
  errno := 0
  phase := .idle
  moves := []
  inTaken := []
  outTaken := []
  hostData := none
  result := .none
  draws := 0

/-- The outcome of a step or an instruction. -/
abbrev Outcome := Host.Outcome State Fault Refusal

end Sys2Proof.Machine
end

