-- ==== Sys2Proof/Machine/Operands.lean ====
section
/-! DEFINITION. The operand forms: cells of the internal memories (spec/20_memory.md R61 to R64), ring arithmetic
(spec/40_ring.md R110 to R113), the bytes of a group (spec/45_encoder.md R213) and the deframer's position
(spec/46_decoder.md R241, R248). -/

namespace Sys2Proof.Machine

/-! ## Cells -/

/-- What a cell that nothing has written reads as: no value (R63; log 4). -/
def Memory.unlisted : Option Byte := none

/-- One cell (R64). -/
def Memory.read : Memory → Nat → Option Byte
  | [], _ => Memory.unlisted
  | (k, v) :: rest, a => if a = k then some v else Memory.read rest a

/-- One cell stored, the indexes kept strictly rising (R64). -/
def Memory.write : Memory → Nat → Byte → Memory
  | [], a, v => [(a, v)]
  | (k, w) :: rest, a, v =>
    if a < k then (a, v) :: (k, w) :: rest
    else if a = k then (a, v) :: rest
    else (k, w) :: Memory.write rest a v

/-- Every index is at least `lo`, and they rise strictly. -/
def Memory.rising : Nat → Memory → Bool
  | _, [] => true
  | lo, (k, _) :: rest => decide (lo ≤ k) && Memory.rising (k + 1) rest

/-- The canonical form: indexes strictly rising. No listed cell is equal to what an unlisted one reads as,
since an unlisted cell has no value. -/
def Memory.wf (m : Memory) : Bool := m.rising 0

/-- Every listed index is below the memory's size (R60). -/
def Memory.within (size : Nat) (m : Memory) : Bool := m.all fun cell => decide (cell.1 < size)

/-- A read that faults on a cell without a value. -/
def written (v : Option Byte) : Except Fault Byte :=
  match v with
  | some b => .ok b
  | none => .error .readUnwritten

/-! ## Ring arithmetic -/

/-- R110: `size(r) = r.hd - r.tl`, a wrapping subtraction. -/
def ringSize (tl hd : Cursor) : Nat := (hd - tl).toNat

/-- R111: `capacity(r) = W - size(r)`. -/
def ringCapacity (tl hd : Cursor) : Nat := Config.W - ringSize tl hd

/-- R112: `mask(v) = v[8:0]`. -/
def mask (v : Cursor) : Nat := (v.extractLsb' 0 9).toNat

/-- R113: `run(r) = 512 - mask(r.hd)`. -/
def ringRun (hd : Cursor) : Nat := Config.buf - mask hd

/-- R23: `la.tl` is another name for `dict.hd`. -/
abbrev State.laTl (s : State) : Cursor := s.dictHd

def State.dictSize (s : State) : Nat := ringSize s.dictTl s.dictHd
def State.laSize (s : State) : Nat := ringSize s.laTl s.laHd
def State.dictCapacity (s : State) : Nat := ringCapacity s.dictTl s.dictHd

/-- The cell of `BF` behind a virtual index (R61). -/
def State.bfAt (s : State) (v : Cursor) : Option Byte := s.bf.read (mask v)

/-- Lookahead byte `S[k]` (R11). -/
def State.laByte (s : State) (k : Nat) : Option Byte := s.bfAt (s.laTl + BitVec.ofNat 64 k)

/-- Byte `X[q]` of the dictionary followed by the lookahead (R177). -/
def State.textByte (s : State) (q : Nat) : Option Byte := s.bfAt (s.dictTl + BitVec.ofNat 64 q)

/-! ## A group's bytes, and the deframer's place -/

/-- `TOK[0..n)` (R213). -/
def State.groupToks (s : State) : List TokReg := s.tok.toList.take s.n.val

/-- The bytes Flush offers, in order: `c`, then the wire bytes of `TOK[0..n)` (R213). -/
def State.flushBytes (s : State) : List Byte := s.c :: s.groupToks.flatMap TokReg.wire

/-- The registers `slot` and `ctl` as the decoder's position (R94). -/
def State.wirePos (s : State) : WirePos := ⟨s.slot, s.ctl⟩

/-- The bytes of the wire form being read that have already arrived (R248). -/
def Phase.heldBytes : Phase → List Byte
  | .dNeed (.lengthByte off) => [off]
  | .dNeed .firstByte => []
  | .idle => []
  | .cRead => []
  | .cWrite _ _ _ => []
  | .dToken => []
  | .dWrite _ _ => []
  | .done => []
  | .error => []

/-- The program point that waits on an `OutWrite` of `b` (R215, R284). -/
def waitPoint (b : Byte) : EmitSite → Phase
  | .flush k site => .cWrite b k site
  | .put site => .dWrite b site

/-- Whether an `InRead` is outstanding (R284). -/
def Phase.awaitsInput : Phase → Bool
  | .cRead => true
  | .dToken => true
  | .dNeed _ => true
  | .idle => false
  | .cWrite _ _ _ => false
  | .dWrite _ _ => false
  | .done => false
  | .error => false

/-- The byte of the outstanding `OutWrite`, if there is one (R284). -/
def Phase.offers : Phase → Option Byte
  | .cWrite b _ _ => some b
  | .dWrite b _ => some b
  | .idle => none
  | .cRead => none
  | .dToken => none
  | .dNeed _ => none
  | .done => none
  | .error => none

end Sys2Proof.Machine
end

