-- ==== Sys2Proof/Machine/Flags.lean ====
section
/-! DEFINITION. The flags and the host-visible register words: `eof_seen` (spec/10_state.md R25), the STATUS
fields (R38 to R41; 30_encoding.md R92; 60_exceptions.md R300, R306) and the CTRL read word (R278). The control
bits of `c` and `ctl` are `setKindBit` and `kindBit` of Decode.lean (R82, R212, R242). -/

namespace Sys2Proof.Machine

/-- R25, R131: the input channel has answered `End`. -/
def setEof (s : State) : State := { s with eofSeen := true }

/-- R39. -/
def stateCode : RunState → BitVec 2
  | .idle => 0
  | .busy => 1
  | .done => 2
  | .error => 3

/-- R40, R300. -/
def errCode : Option RunError → BitVec 4
  | none => 0
  | some .readError => 1
  | some .writeError => 2
  | some .truncated => 3
  | some .badReference => 4

/-- R37: the value of the `MODE` bit. -/
def modeBit : Engine → BitVec 1
  | .compress => 0
  | .decompress => 1

/-- R37: the engine a `MODE` bit selects. -/
def engineOf (m : BitVec 1) : Engine := if m = 0 then .compress else .decompress

/-- R92: the STATUS read word, every reserved bit 0. -/
def statusWord (e : Errno) (err : Option RunError) (r : RunState) : Word :=
  (e.setWidth 32 <<< 16) ||| ((errCode err).setWidth 32 <<< 4) ||| (stateCode r).setWidth 32

/-- R278: the CTRL read word, `zext_32(MODE) << 1`; `START` and the reserved bits read 0. -/
def ctrlReadWord (m : Engine) : Word := (modeBit m).setWidth 32 <<< 1

/-- R300, R306: the number an abort records: a channel's, or `GENERIC_IO_ERROR` when it gives none, and always
that for TRUNCATED and BAD_REFERENCE. -/
def recordedErrno (err : RunError) (e : Errno) : Errno :=
  match err with
  | .readError => if e = 0 then Config.genericIoError else e
  | .writeError => if e = 0 then Config.genericIoError else e
  | .truncated => Config.genericIoError
  | .badReference => Config.genericIoError

end Sys2Proof.Machine
end

