-- ==== Sys2Proof/Machine/Ops.lean ====
section
/-! DEFINITION. The shared operations: how an operation ends (spec/00_scope.md R10), taking an error
(spec/60_exceptions.md R301) and leaving one (R309: only Start or a reset), the run start (spec/47 R281), the
hardware reset (spec/70 R340, R341), Emit (spec/45 R215), and the stores of the two engines. -/

namespace Sys2Proof.Machine

/-! ## How an operation ends -/

/-- An operation either returns a value, or stops the controller (at a channel transaction, with its place kept
in `phase`, R9, R10; or at an error, R301), or meets a model fault. -/
inductive Ran (α : Type) where
  | returned (a : α) (s : State)
  | stops (s : State)
  | fault (f : Fault)
deriving DecidableEq, Repr

/-- Go on with the next statement when an operation returned. -/
def Ran.andThen {α β : Type} (r : Ran α) (k : α → State → Ran β) : Ran β :=
  match r with
  | .returned a s => k a s
  | .stops s => .stops s
  | .fault f => .fault f

/-- A statement that issues no transaction. -/
def Ran.ofExcept {α : Type} (r : Except Fault α) (k : α → Ran β) : Ran β :=
  match r with
  | .ok a => k a
  | .error f => .fault f

/-- The outcome of an operation run as an instruction of its own, its value kept by `keep` (log 19, log 22). -/
def Ran.outcome {α : Type} (r : Ran α) (keep : α → State → State) : Outcome :=
  match r with
  | .returned a s => .next (keep a s)
  | .stops s => .next s
  | .fault f => .fault f

/-- An operation that returns no value keeps none. -/
def keepNone (_ : Unit) (s : State) : State := s

def setPhase (p : Phase) (s : State) : State := { s with phase := p }

/-! ## Taking an error -/

/-- R46, R301: after an error both engines' registers hold any value and their memories are as if never written
(log 7). -/
def dropEngines (s : State) : State :=
  { s with
    bf := []
    dictTl := Config.freeCursor s.draws
    dictHd := Config.freeCursor (s.draws + 1)
    laHd := Config.freeCursor (s.draws + 2)
    eofSeen := Config.freeFlag s.draws
    t := []
    n := Config.freeCount s.draws
    c := Config.freeByte s.draws
    tok := Vector.ofFn fun k => Config.freeTok (s.draws + k.val)
    ring := []
    cursor := Config.freeByte (s.draws + 1)
    filled := Config.freeFill s.draws
    ctl := Config.freeByte (s.draws + 2)
    slot := Config.freeCount (s.draws + 1)
    draws := s.draws + 8 }

/-- R301: `raise E(e)`, the CORE's only trap entry: the class, the number (R306), STATE and the program point;
the engines' state is dropped, and no transaction follows. There is no return from it (R309). -/
def raiseError (err : RunError) (e : Errno) (s : State) : State :=
  { dropEngines s with
    errClass := some err
    errno := recordedErrno err e
    runState := .error
    phase := .error }

/-! ## Start, end and reset -/

/-- R130: WinInit. -/
def initWindow (s : State) : State :=
  { s with dictTl := 0, dictHd := 0, laHd := 0, eofSeen := false }

/-- R281: the run-start column of R45, with `MODE` as just written; the streams of the new run are empty
(log 19). The controller's first statement is the caller's. -/
def startRun (m : Engine) (s : State) : State :=
  { initWindow s with
    n := 0
    c := 0
    cursor := 0
    filled := 0
    ctl := 0
    slot := 8
    mode := m
    runState := .busy
    errClass := none
    errno := 0
    inTaken := []
    outTaken := [] }

/-- R271, R275: `STATUS.STATE <- DONE`; the engines keep their values (R46). -/
def endRun (s : State) : State := { s with runState := .done, phase := .done }

/-- R341: what the platform did with the transaction outstanding at a reset (log 11). -/
def settleInflight (f : Inflight) (s : State) : State :=
  { s with
    inTaken := if s.phase.awaitsInput then s.inTaken ++ f.inByte.toList else s.inTaken
    outTaken := if f.outDelivered then s.outTaken ++ s.phase.offers.toList else s.outTaken }

/-- R340: every register to the reset column; the outside world's records stay. -/
def hardReset (s : State) : State :=
  { State.reset with
    moves := s.moves
    inTaken := s.inTaken
    outTaken := s.outTaken
    hostData := s.hostData
    draws := s.draws }

/-! ## Emit -/

/-- R215: `OutWrite(b)` is issued, and the controller waits for its answer. -/
def offer (b : Byte) (site : EmitSite) (s : State) : State := setPhase (waitPoint b site) s

/-! ## The window's stores -/

/-- R131: `BF[mask(la.hd)] <- b ; la.hd <- la.hd + 1`. -/
def storeInput (b : Byte) (s : State) : State :=
  { s with bf := s.bf.write (mask s.laHd) b, laHd := s.laHd + 1 }

/-- R134: Shift(n), for 1 ≤ n ≤ size(la) (log 16). -/
def shiftWindow (n : Nat) (s : State) : Except Fault State :=
  if 1 ≤ n ∧ n ≤ s.laSize then
    .ok { s with
      dictHd := s.dictHd + BitVec.ofNat 64 n
      dictTl :=
        if n > s.dictCapacity then s.dictTl + BitVec.ofNat 64 (n - s.dictCapacity) else s.dictTl }
  else .error .shiftPrecondition

/-! ## The framer's and the deframer's stores -/

/-- R210: a new group: `n <- 0 ; c <- 0`. -/
def openGroup (s : State) : State := { s with n := 0, c := 0 }

/-- R210, R212: `TOK[n] <- tok`, its control bit, `n <- n + 1`. -/
def storeTok (tok : TokReg) (s : State) : State :=
  { s with
    tok := s.tok.setIfInBounds s.n.val tok
    c := if tok.kind then setKindBit s.c s.n.val else s.c
    n := Fin.ofNat 9 (s.n.val + 1) }

/-- R249: `filled` counts up and stops at 256. -/
def fillCount (f : Fin 257) : Fin 257 := Fin.ofNat 257 (min (f.val + 1) 256)

/-- R243: what Put does once its byte is accepted: `RING[cursor] <- b`, `cursor` and `filled`. -/
def storeOutput (b : Byte) (s : State) : State :=
  { s with
    ring := s.ring.write s.cursor.toNat b
    cursor := s.cursor + 1
    filled := fillCount s.filled }

/-- R241: `ctl <- x ; slot <- 0`. -/
def openCtl (x : Byte) (s : State) : State := { s with ctl := x, slot := 0 }

/-- R240: the end of a token: `slot <- slot + 1`, and the next token's first `InRead`. -/
def endToken (s : State) : State := { s with slot := nextSlot s.slot, phase := .dToken }

end Sys2Proof.Machine
end

