-- ==== Sys2Proof/Machine/Errors.lean ====
section
/-! DEFINITION. Abort and Reset as instructions (spec/60_exceptions.md R301; spec/70_reset_and_hazards.md R340,
R341). -/

namespace Sys2Proof.Machine

/-- R301, R306. -/
def execAbort (err : RunError) (e : Errno) (s : State) : Outcome := .next (raiseError err e s)

/-- R340, R341: the platform settles an outstanding transaction, and every register is reset. -/
def execReset (f : Inflight) (s : State) : Outcome := .next (hardReset (settleInflight f s))

end Sys2Proof.Machine
end

