-- ==== Sys2Proof/Machine/Encoder.lean ====
section
/-! DEFINITION. The framer: Accept, Flush, Finish and Emit (spec/45_encoder.md R210 to R217). -/

namespace Sys2Proof.Machine

/-- R215: Emit issues its `OutWrite` and waits; `Ok` goes on in `writeOk`, `Err` is WRITE_ERROR. -/
def emit (b : Byte) (site : EmitSite) (s : State) : Ran Unit := .stops (offer b site s)

/-- R213: Flush offers the control byte first; the bytes after it follow, one per `Ok`, in `flushOn`. -/
def flush (site : FlushSite) (s : State) : Ran Unit :=
  if s.n.val = 0 then .fault .flushPrecondition else emit s.c (.flush 0 site) s

/-- R210, R211: at a group boundary a full group is flushed, and the token waits with the Flush; otherwise the
token is stored. -/
def accept (tok : TokReg) (s : State) : Ran Unit :=
  if s.n.val = 0 ∨ s.n.val = 8 then
    if s.n.val > 0 then flush (.accept tok) s else .returned () (storeTok tok (openGroup s))
  else .returned () (storeTok tok s)

/-- R214. -/
def finish (s : State) : Ran Unit := if s.n.val > 0 then flush .finish s else .returned () s

def execAccept (tok : TokReg) (s : State) : Outcome := (accept tok s).outcome keepNone

def execFlush (site : FlushSite) (s : State) : Outcome := (flush site s).outcome keepNone

def execFinish (s : State) : Outcome := (finish s).outcome keepNone

def execEmit (b : Byte) (site : EmitSite) (s : State) : Outcome := (emit b site s).outcome keepNone

end Sys2Proof.Machine
end

