-- ==== Sys2Proof/Machine/Decoder.lean ====
section
/-! DEFINITION. The deframer: DecRun, Put, Copy and NeedByte (spec/46_decoder.md R240 to R251), DecompressRun
(spec/47_driver_and_host.md R275), and the wire forms, each run when its last byte has arrived (R94). -/

namespace Sys2Proof.Machine

/-- R240: the head of the loop waits on a token's first `InRead`. -/
def decLoop (s : State) : Ran Unit := .stops (setPhase .dToken s)

/-- R248: NeedByte issues its `InRead` and waits. -/
def needByte (site : NeedSite) (s : State) : Ran Unit := .stops (setPhase (.dNeed site) s)

/-- R243: Put emits its byte; `storeOutput` follows when the byte is accepted. -/
def put (b : Byte) (site : PutSite) (s : State) : Ran Unit := emit b (.put site) s

/-- R245: one step of a copy reads `RING[src]` before its Put writes; `left` steps follow it. -/
def copyStep (src : Byte) (left : Nat) (s : State) : Ran Unit :=
  Ran.ofExcept (written (s.ring.read src.toNat)) fun b => put b (.copy src left) s

/-- R245, R246: the reference check, then the first step of `lm1 + 1`, from `src = trunc_8(cursor - d)`. -/
def copy (off lm1 : Byte) (s : State) : Ran Unit :=
  if off.toNat + 1 > s.filled.val then .stops (raiseError .badReference Config.genericIoError s)
  else copyStep (s.cursor - off - 1) lm1.toNat s

/-- Put's byte was accepted and stored: the token ends, or the copy takes its next step (R240, R245). -/
def putReturn (site : PutSite) (s : State) : Ran Unit :=
  match site with
  | .literal => .stops (endToken s)
  | .copy _ 0 => .stops (endToken s)
  | .copy src (left + 1) => copyStep (src + 1) left s

/-- R241: the control byte of a group, and then its first token's first byte. -/
def execCtrlByte (k : Byte) (s : State) : Outcome := (needByte .firstByte (openCtl k s)).outcome keepNone

/-- R243: a literal token. -/
def execLit (v : Byte) (s : State) : Outcome := (put v .literal s).outcome keepNone

/-- R244, R245: a back-reference token. -/
def execBref (off lm1 : Byte) (s : State) : Outcome := (copy off lm1 s).outcome keepNone

def execDecRun (s : State) : Outcome := (decLoop s).outcome keepNone

def execPut (b : Byte) (site : PutSite) (s : State) : Outcome := (put b site s).outcome keepNone

def execCopy (off lm1 : Byte) (s : State) : Outcome := (copy off lm1 s).outcome keepNone

def execNeedByte (site : NeedSite) (s : State) : Outcome := (needByte site s).outcome keepNone

/-- R275: DecRun is its first statement; its last, `STATUS.STATE <- DONE`, follows a clean end (`cleanEnd`). -/
def execDecompressRun (s : State) : Outcome := (decLoop s).outcome keepNone

/-- R247: `End` at the start of a token ends the run cleanly (R275). -/
def cleanEnd (s : State) : Ran Unit := .returned () (endRun s)

end Sys2Proof.Machine
end

