-- ==== Sys2Proof/Machine/Kmp.lean ====
section
/-! DEFINITION. BuildTable, the KMP failure table of the lookahead (spec/42_kmp_table.md R150 to R154), written
as the pseudocode of R151. -/

namespace Sys2Proof.Machine

/-- `while k > 0 and S[q] != S[k]: k <- T[k - 1]`, for `x` = `S[q]`; `fuel` bounds the loop (log 17). -/
def borderLoop (S : Nat → Option Byte) (t : Memory) (x : Byte) : Nat → Nat → Except Fault Nat
  | 0, _ => .error .tableOverrun
  | fuel + 1, k =>
    if k = 0 then .ok 0
    else do
      let y ← written (S k)
      if x = y then .ok k
      else do
        let b ← written (t.read (k - 1))
        borderLoop S t x fuel b.toNat

/-- The loop over `q`, for the `count` entries still to write; `k` is the length of the current border. -/
def tableLoop (S : Nat → Option Byte) : Nat → Nat → Nat → Memory → Except Fault Memory
  | 0, _, _, t => .ok t
  | count + 1, q, k, t => do
    let x ← written (S q)
    let k ← borderLoop S t x (k + 1) k
    let y ← written (S k)
    let k := if x = y then k + 1 else k
    tableLoop S count (q + 1) k (t.write q (BitVec.ofNat 8 k))

/-- R151 over the bytes `S[0..m)`: `T[0..m)` is written and no other entry. A lookahead longer than `T` is ruled
out by R24. -/
def buildEntries (S : Nat → Option Byte) (m : Nat) (t : Memory) : Except Fault Memory :=
  if m = 0 then .ok t
  else if m > Config.W then .error .noSuchCell
  else tableLoop S (m - 1) 1 0 (t.write 0 0)

def buildTable (s : State) : Ran Unit :=
  Ran.ofExcept (buildEntries s.laByte s.laSize s.t) fun t => .returned () { s with t := t }

def execBuildTable (s : State) : Outcome := (buildTable s).outcome keepNone

end Sys2Proof.Machine
end

