-- ==== Sys2Proof/Machine/Policy.lean ====
section
/-! DEFINITION. Policy, the choice of a token from a search result (spec/44_match_policy.md R190 to R196). -/

namespace Sys2Proof.Machine

/-- R191, R192: whether the result `(o, len)` gives a literal; `s0` is the lookahead's first byte. The last
comparison reads `dict.tl + 2` (90_conflicts.md C3). -/
def choosesLiteral (len : Nat) (s0 : Byte) (s : State) : Except Fault Bool :=
  if len < 2 then .ok true
  else if len = 2 ∧ s.laSize > 3 then do
    let s2 ← written (s.laByte 2)
    let s3 ← written (s.laByte 3)
    let x ← written (s.textByte 2)
    .ok (decide (s2 = s0 ∧ (s3 = s0 ∨ s3 = x)))
  else .ok false

/-- R194: the literal of the lookahead's first byte; its `b` is any value (log 6). -/
def literalToken (s0 : Byte) (s : State) : TokReg := ⟨false, s0, Config.freeByte s.draws⟩

/-- R193, R87: the back-reference to offset `o`, `off = trunc_8(D - o - 1)`, `lm1 = trunc_8(len - 1)`. -/
def referenceToken (o : Cursor) (len : Nat) (s : State) : TokReg :=
  ⟨true, (s.dictHd - s.dictTl - o - 1).setWidth 8, BitVec.ofNat 8 (len - 1)⟩

/-- R190: every `BF` read comes before the Shift. -/
def policy (o : Cursor) (len : Nat) (s : State) : Ran TokReg :=
  Ran.ofExcept (written (s.laByte 0)) fun s0 =>
  Ran.ofExcept (choosesLiteral len s0 s) fun lit =>
  if lit then
    Ran.ofExcept (shiftWindow 1 s) fun s' =>
    .returned (literalToken s0 s) { s' with draws := s.draws + 1 }
  else
    Ran.ofExcept (shiftWindow len s) fun s' => .returned (referenceToken o len s) s'

def execPolicy (o : Cursor) (len : Nat) (s : State) : Outcome :=
  (policy o len s).outcome fun tok s => { s with result := .policy tok }

end Sys2Proof.Machine
end

