-- ==== Sys2Proof/Machine/Search.lean ====
section
/-! DEFINITION. Search, the longest, oldest match of the lookahead (spec/43_search.md R170 to R180), written as the
pseudocode of R170. -/

namespace Sys2Proof.Machine

/-- The loop of R170: `i` and `j` are its virtual indices and `best` its pair so far; `fuel` bounds the loop by
R179 (log 17). -/
def searchLoop (bf : Cursor → Option Byte) (t : Nat → Option Byte) (dictTl laTl laHd : Cursor) :
    Nat → Cursor → Cursor → Cursor × Nat → Except Fault (Cursor × Nat)
  | 0, _, _, _ => .error .searchOverrun
  | fuel + 1, i, j, best =>
    if j = laHd then .ok best
    else
      -- R172: the candidate start, and R173: it may not reach the dictionary's head.
      let o := j - dictTl - (i - laTl)
      if o = laTl - dictTl then .ok best
      else do
        let x ← written (bf i)
        let y ← written (bf j)
        if x = y then
          -- R174
          if i + 1 = laHd then .ok (o, (i + 1 - laTl).toNat)
          else searchLoop bf t dictTl laTl laHd fuel (i + 1) (j + 1) best
        else if i = laTl then searchLoop bf t dictTl laTl laHd fuel i (j + 1) best
        else do
          -- R175, with the best updated by R176
          let p := (i - laTl).toNat
          let b ← written (t (p - 1))
          searchLoop bf t dictTl laTl laHd fuel (laTl + b.setWidth 64) j
            (if p > best.2 then (o, p) else best)

/-- R170, with the guard of R171. -/
def findMatch (s : State) : Except Fault (Cursor × Nat) :=
  if s.laSize = 0 then .ok (0, 0)
  else
    searchLoop s.bfAt s.t.read s.dictTl s.laTl s.laHd (2 * (s.dictSize + s.laSize) + 1) s.laTl s.dictTl (0, 0)

/-- Search writes no state of the machine; its pair is its value. -/
def search (s : State) : Ran (Cursor × Nat) := Ran.ofExcept (findMatch s) fun r => .returned r s

def execSearch (s : State) : Outcome :=
  (search s).outcome fun r s => { s with result := .search r.1 r.2 }

end Sys2Proof.Machine
end

