-- ==== Sys2Proof/Machine/Window.lean ====
section
/-! DEFINITION. The window's operations: WinInit, Fill and Shift (spec/41_window.md R130 to R136). -/

namespace Sys2Proof.Machine

/-- R131: Fill up to its next `InRead`, or its return. The channel's answer goes on in `fillByte`, `fillEnd` or
READ_ERROR. -/
def fill (s : State) : Ran FillResult :=
  if s.laSize < Config.W then
    if s.eofSeen then .returned .eof s else .stops (setPhase .cRead s)
  else .returned .ok s

def execWinInit (s : State) : Outcome := .next (initWindow s)

def execFill (s : State) : Outcome := (fill s).outcome fun r s => { s with result := .fill r }

/-- R134. -/
def execShift (n : Nat) (s : State) : Outcome :=
  (Ran.ofExcept (shiftWindow n s) fun s => .returned () s).outcome keepNone

end Sys2Proof.Machine
end

