-- ==== Sys2Proof/Machine/Driver.lean ====
section
/-! DEFINITION. The compress driver (spec/47_driver_and_host.md R271 to R273) and how it goes on when a channel
answers (R284). -/

namespace Sys2Proof.Machine

/-- R271, R273: one token, made in full before Accept sees it: BuildTable, Search, Policy. -/
def produceToken (s : State) : Ran TokReg :=
  (buildTable s).andThen fun _ s => (search s).andThen fun r s => policy r.1 r.2 s

/-- The loop of R271, up to the next transaction or the end of the run; `fuel` bounds the tokens made without one
(log 17). -/
def compressLoop : Nat → State → Ran Unit
  | 0, _ => .fault .driverOverrun
  | fuel + 1, s =>
    (fill s).andThen fun _ s =>
    if s.laSize = 0 then (finish s).andThen fun _ s => .returned () (endRun s)
    else (produceToken s).andThen fun tok s => (accept tok s).andThen fun _ s => compressLoop fuel s

/-- The loop from a state: every token shortens the lookahead (R196), and one more pass ends it. -/
def compressFrom (s : State) : Ran Unit := compressLoop (s.laSize + 1) s

/-- Fill's `InRead` answered `Byte(b)` (R131). -/
def fillByte (b : Byte) (s : State) : Ran Unit := compressFrom (storeInput b s)

/-- Fill's `InRead` answered `End` (R131). -/
def fillEnd (s : State) : Ran Unit := compressFrom (setEof s)

/-- Flush returned to its caller: Accept stores the token it held and the loop goes on (R210, R271), or the run
ends (R214, R271). -/
def flushReturn (site : FlushSite) (s : State) : Ran Unit :=
  match site with
  | .accept tok => compressFrom (storeTok tok (openGroup s))
  | .finish => .returned () (endRun s)

/-- Byte `k` of a group was accepted: the next byte, or Flush returns (R213). -/
def flushOn (k : Nat) (site : FlushSite) (s : State) : Ran Unit :=
  match s.flushBytes[k + 1]? with
  | some b => emit b (.flush (k + 1) site) s
  | none => flushReturn site s

/-- R271. -/
def execCompressRun (s : State) : Outcome := (compressFrom s).outcome keepNone

end Sys2Proof.Machine
end

