-- ==== Sys2Proof/Machine/HostRegs.lean ====
section
/-! DEFINITION. The host registers: CTRL writes, CTRL and STATUS reads (spec/47_driver_and_host.md R276 to R281;
spec/10_state.md R37, R38). -/

namespace Sys2Proof.Machine

/-- R277: a CTRL write while BUSY has no effect at all. -/
def unlessBusy (s : State) (effect : State → Outcome) : Outcome :=
  if s.runState = .busy then .next s else effect s

/-- R276, R281, R91: `MODE <- 0`, Start, and CompressRun's first statement. -/
def execCmdCompress (_r : BitVec 30) (s : State) : Outcome :=
  unlessBusy s fun s => (compressFrom (startRun .compress s)).outcome keepNone

/-- R276, R281, R91: `MODE <- 1`, Start, and DecompressRun's first statement. -/
def execCmdDecompress (_r : BitVec 30) (s : State) : Outcome :=
  unlessBusy s fun s => (decLoop (startRun .decompress s)).outcome keepNone

/-- R276: `MODE <- m`; no run starts. -/
def execCmdSetMode (_r : BitVec 30) (m : BitVec 1) (s : State) : Outcome :=
  unlessBusy s fun s => .next { s with mode := engineOf m }

/-- R278. -/
def execRdCtrl (s : State) : Outcome := .next { s with hostData := some (ctrlReadWord s.mode) }

/-- R279, R92. -/
def execRdStatus (s : State) : Outcome :=
  .next { s with hostData := some (statusWord s.errno s.errClass s.runState) }

end Sys2Proof.Machine
end

