-- ==== Sys2Proof/Machine/Dispatch.lean ====
section
/-! DEFINITION. One arm per instruction. -/

namespace Sys2Proof.Machine

def exec (i : Instr) (s : State) : Host.Outcome State Fault Refusal :=
  match i with
  | .ctrlByte k => Sys2Proof.Machine.execCtrlByte k s
  | .lit v => Sys2Proof.Machine.execLit v s
  | .bref off lm1 => Sys2Proof.Machine.execBref off lm1 s
  | .cmdCompress r => Sys2Proof.Machine.execCmdCompress r s
  | .cmdDecompress r => Sys2Proof.Machine.execCmdDecompress r s
  | .cmdSetMode r m => Sys2Proof.Machine.execCmdSetMode r m s
  | .rdCtrl => Sys2Proof.Machine.execRdCtrl s
  | .rdStatus => Sys2Proof.Machine.execRdStatus s
  | .winInit => Sys2Proof.Machine.execWinInit s
  | .fill => Sys2Proof.Machine.execFill s
  | .shift n => Sys2Proof.Machine.execShift n s
  | .buildTable => Sys2Proof.Machine.execBuildTable s
  | .search => Sys2Proof.Machine.execSearch s
  | .policy o len => Sys2Proof.Machine.execPolicy o len s
  | .accept tok => Sys2Proof.Machine.execAccept tok s
  | .flush site => Sys2Proof.Machine.execFlush site s
  | .finish => Sys2Proof.Machine.execFinish s
  | .emit b site => Sys2Proof.Machine.execEmit b site s
  | .compressRun => Sys2Proof.Machine.execCompressRun s
  | .decRun => Sys2Proof.Machine.execDecRun s
  | .put b site => Sys2Proof.Machine.execPut b site s
  | .copy off lm1 => Sys2Proof.Machine.execCopy off lm1 s
  | .needByte site => Sys2Proof.Machine.execNeedByte site s
  | .decompressRun => Sys2Proof.Machine.execDecompressRun s
  | .abort err e => Sys2Proof.Machine.execAbort err e s
  | .reset inflight => Sys2Proof.Machine.execReset inflight s

end Sys2Proof.Machine
end

