-- ==== Sys2Proof/Machine/Agents.lean ====
section
/-! DEFINITION. What a move of the channels or the host makes the controller do (spec/47_driver_and_host.md R270,
R283, R284): run an instruction, go on with an operation that waited, or nothing. -/

namespace Sys2Proof.Machine

/-- How an answer lets a waiting operation go on. -/
inductive Resume where
  /-- Fill's `InRead` answered `Byte(b)`. -/
  | fillByte (b : Byte)
  /-- Fill's `InRead` answered `End`. -/
  | fillEnd
  /-- `End` at the start of a decoder token. -/
  | cleanEnd
  /-- The outstanding `OutWrite` answered `Ok`. -/
  | writeOk
deriving DecidableEq, Repr

/-- What the controller does on a move. -/
inductive Fetched where
  | instr (i : Instr)
  | resume (r : Resume)
  | ignored
  | refused (r : Refusal)
deriving DecidableEq, Repr

/-- The first byte of a form, read by `slot` and `ctl`: a form of one byte runs, and a back-reference calls NeedByte
for its other byte (R94, R240, R248). A run calls NeedByte for a token's first byte at slot 0 only. DESIGN CHOICE
(log 26): where NeedByte(firstByte) was run on its own at another slot, the byte is read by that slot too, at slot 8 as
a control byte. -/
def fetchWire (s : State) (b : Byte) : Fetched :=
  match decodeWire s.wirePos [b] with
  | .ok (i, _) => .instr i
  | .error (.needLength off) => .instr (.needByte (.lengthByte off))
  | .error r => .refused (.rejected r)

/-- An answer of the input channel (R131, R240, R247, R248, R300). NeedByte returns the length byte to its call site,
whose next statement is Copy (R240): the kind was tested before the call, and `slot` and `ctl` are not read again. -/
def fetchInput (s : State) (a : InAnswer) : Fetched :=
  match s.phase, a with
  | .cRead, .byte b => .resume (.fillByte b)
  | .cRead, .endOfInput => .resume .fillEnd
  | .cRead, .err e => .instr (.abort .readError e)
  | .dToken, .byte b => fetchWire s b
  | .dToken, .endOfInput => .resume .cleanEnd
  | .dToken, .err e => .instr (.abort .readError e)
  | .dNeed .firstByte, .byte b => fetchWire s b
  | .dNeed (.lengthByte off), .byte b => .instr (.bref off b)
  | .dNeed _, .endOfInput => .instr (.abort .truncated Config.genericIoError)
  | .dNeed _, .err e => .instr (.abort .readError e)
  | .idle, _ => .refused .unrequestedAnswer
  | .cWrite _ _ _, _ => .refused .unrequestedAnswer
  | .dWrite _ _, _ => .refused .unrequestedAnswer
  | .done, _ => .refused .unrequestedAnswer
  | .error, _ => .refused .unrequestedAnswer

/-- An answer of the output channel (R215, R303). -/
def fetchOutput (s : State) (a : OutAnswer) : Fetched :=
  match s.phase.offers, a with
  | some _, .ok => .resume .writeOk
  | some _, .err e => .instr (.abort .writeError e)
  | none, _ => .refused .unrequestedAnswer

/-- A host access (R66, R276 to R280). -/
def fetchHost (a : HostAccess) : Fetched :=
  match decodeHost a with
  | .ok i => .instr i
  | .error .statusWrite => .ignored
  | .error r => .refused (.rejected r)

def fetch (s : State) (m : Move) : Fetched :=
  match m with
  | .input a => fetchInput s a
  | .output a => fetchOutput s a
  | .host a => fetchHost a
  | .reset f => .instr (.reset f)

/-- The streams' record of a move: a byte delivered is consumed, and a byte answered `Ok` is in the output
(R67, R303). -/
def recordMove (s : State) (m : Move) (rest : List Move) : State :=
  match m with
  | .input (.byte b) => { s with moves := rest, inTaken := s.inTaken ++ [b] }
  | .output .ok => { s with moves := rest, outTaken := s.outTaken ++ s.phase.offers.toList }
  | .input .endOfInput => { s with moves := rest }
  | .input (.err _) => { s with moves := rest }
  | .output (.err _) => { s with moves := rest }
  | .host _ => { s with moves := rest }
  | .reset _ => { s with moves := rest }

/-- The outstanding `OutWrite` answered `Ok` (R213, R243, R245). -/
def writeOk (s : State) : Ran Unit :=
  match s.phase with
  | .cWrite _ k site => flushOn k site s
  | .dWrite b site => putReturn site (storeOutput b s)
  | .idle => .stops s
  | .cRead => .stops s
  | .dToken => .stops s
  | .dNeed _ => .stops s
  | .done => .stops s
  | .error => .stops s

def resume (r : Resume) (s : State) : Outcome :=
  match r with
  | .fillByte b => (fillByte b s).outcome keepNone
  | .fillEnd => (fillEnd s).outcome keepNone
  | .cleanEnd => (cleanEnd s).outcome keepNone
  | .writeOk => (writeOk s).outcome keepNone

/-- One move, on the state `s` it finds; `rest` is pending after it. -/
def runMove (s : State) (m : Move) (rest : List Move) : Outcome :=
  match fetch s m with
  | .instr i => exec i (recordMove s m rest)
  | .resume r => resume r (recordMove s m rest)
  | .ignored => .next (recordMove s m rest)
  | .refused r => .refused r

/-- With no move pending the CORE waits, and its state stays (R9, R283, R318; log 2). -/
def runPending (s : State) : Outcome :=
  match s.moves with
  | [] => .next s
  | m :: rest => runMove s m rest

/-! ## A row's word where the next step fetches -/

/-- A decompress run in progress, waiting at `p` with the deframer at `slot` and `ctl` (log 25). -/
def waitInStream (p : Phase) (slot : Fin 9) (ctl : Byte) (s : State) : State :=
  { s with
    mode := .decompress
    runState := .busy
    errClass := none
    errno := 0
    phase := p
    slot := slot
    ctl := ctl }

def pushMove (m : Move) (s : State) : State := { s with moves := m :: s.moves }

/-- Log 25: 8 bits arrive as the byte of a group boundary; 16 bits as a back-reference whose first byte has
arrived; 32 bits as a word the host writes to CTRL. -/
def placeWord (s : State) (nbits w : Nat) : State :=
  if nbits = 8 then pushMove (.input (.byte (wordByte w 0))) (waitInStream .dToken 8 0 s)
  else if nbits = 16 then
    pushMove (.input (.byte (wordByte w 1))) (waitInStream (.dNeed (.lengthByte (wordByte w 0))) 0 0x80 s)
  else if nbits = 32 then pushMove (.host (ctrlWrite (BitVec.ofNat 32 w))) s
  else s

end Sys2Proof.Machine
end

