-- ==== Sys2Proof/Machine/Step.lean ====
section
/-! DEFINITION. One step: the next move of the channels or the host, and the controller's run up to its next
transaction (spec/00_scope.md R10; spec/47_driver_and_host.md R270). -/

namespace Sys2Proof.Machine

def step (s : State) : Host.Outcome State Fault Refusal := runPending s

def State.withFetchWord (s : State) (nbits w : Nat) : State := placeWord s nbits w

end Sys2Proof.Machine
end

