-- ==== Sys2Proof/Safety.lean ====
section
/-! DEFINITION. What claims are made of: the invariants of spec/10_state.md R24, R39 to R41 and of the engines'
registers, the spec's own characterisations of the table (42 R150) and of a match (43 R177), runs (47 R282), and
what a sequence of wire forms stands for (30 R86). -/

namespace Sys2Proof.Machine

/-! ## Invariants -/

/-- Every memory in its canonical form and inside its size (R60). -/
structure MemoriesOk (s : State) : Prop where
  bf_wf : s.bf.wf = true
  bf_within : s.bf.within 512 = true
  t_wf : s.t.wf = true
  t_within : s.t.within 256 = true
  ring_wf : s.ring.wf = true
  ring_within : s.ring.within 256 = true

/-- R39, R284: the STATE a program point goes with. -/
def Phase.runState : Phase → RunState
  | .idle => .idle
  | .cRead => .busy
  | .cWrite _ _ _ => .busy
  | .dToken => .busy
  | .dNeed _ => .busy
  | .dWrite _ _ => .busy
  | .done => .done
  | .error => .error

/-- The engine whose run a program point belongs to (R284). -/
def Phase.engine : Phase → Option Engine
  | .idle => none
  | .cRead => some .compress
  | .cWrite _ _ _ => some .compress
  | .dToken => some .decompress
  | .dNeed _ => some .decompress
  | .dWrite _ _ => some .decompress
  | .done => none
  | .error => none

/-- R39 to R41, R306, R284: STATE follows the program point, a run's engine is the one MODE selects, and the
class and the number are set exactly in ERROR. -/
structure StatusOk (s : State) : Prop where
  state_of_phase : s.runState = s.phase.runState
  engine_of_mode : ∀ e, s.phase.engine = some e → s.mode = e
  class_iff : s.errClass.isSome = true ↔ s.runState = .error
  errno_set : s.runState = .error → s.errno ≠ 0
  errno_clear : s.runState ≠ .error → s.errno = 0

/-- R24, read on the wrapped differences (R114). -/
structure WindowOk (s : State) : Prop where
  dict_le : s.dictSize ≤ 256
  la_le : s.laSize ≤ 256

/-- R63: every live cell holds a byte that was written. -/
def LiveWritten (s : State) : Prop := ∀ q, q < s.dictSize + s.laSize → (s.textByte q).isSome = true

/-- What the compress engine keeps while one of its runs is in progress. -/
structure CompressOk (s : State) : Prop where
  window : WindowOk s
  live : LiveWritten s
  /-- R212, R216: `c` is the control byte of the tokens in `TOK[0..n)`. -/
  control : s.c = controlByte s.groupToks
  /-- R131: an `InRead` is outstanding only with room in the lookahead and no `End` seen. -/
  reading : s.phase = .cRead → s.laSize < 256 ∧ s.eofSeen = false
  /-- R210, R213, R214: the byte offered is the group's, and the caller is one that may flush. -/
  writing : ∀ b k site, s.phase = .cWrite b k site →
    1 ≤ s.n.val ∧ s.flushBytes[k]? = some b ∧
      ((∃ tok, site = .accept tok ∧ s.n.val = 8) ∨ (site = .finish ∧ s.laSize = 0 ∧ s.eofSeen = true))

/-- R34, R246: the `filled` cells before `cursor` have been written. -/
def RingWritten (s : State) : Prop :=
  ∀ k, k < s.filled.val → (s.ring.read (s.cursor - BitVec.ofNat 8 (k + 1)).toNat).isSome = true

/-- What the decompress engine keeps while one of its runs is in progress. -/
structure DecompressOk (s : State) : Prop where
  ring : RingWritten s
  /-- R240, R248: inside a token the slot is one of 0 to 7, and a first byte is needed only at slot 0. -/
  needing : ∀ site, s.phase = .dNeed site →
    (site = .firstByte ∧ s.slot.val = 0) ∨
      (∃ off, site = .lengthByte off ∧ s.slot.val < 8 ∧ kindBit s.ctl s.slot.val = true)
  /-- R245, R284: a copy reads at one distance, of bytes already written, and has at most 255 steps left. -/
  writing : ∀ b site, s.phase = .dWrite b site →
    s.slot.val < 8 ∧
      (site = .literal ∨ ∃ src left d, site = .copy src left ∧ left < 256 ∧ 1 ≤ d ∧ d ≤ s.filled.val ∧
        src = s.cursor - BitVec.ofNat 8 d)

/-- The machine's invariant. The engines' part is asked only while a run of that engine is in progress: outside
a run nothing reads their state (R46). -/
structure Inv (s : State) : Prop where
  memories : MemoriesOk s
  status : StatusOk s
  compress : s.phase.engine = some .compress → CompressOk s
  decompress : s.phase.engine = some .decompress → DecompressOk s

/-- R249: the `filled` cells before `cursor` are the last `filled` output bytes, the newest first. -/
structure RingHoldsOutput (s : State) : Prop where
  filled_eq : s.filled.val = min s.outTaken.length 256
  cells : ∀ k, k < s.filled.val →
    s.ring.read (s.cursor - BitVec.ofNat 8 (k + 1)).toNat = s.outTaken.reverse[k]?

/-! ## The table and the match -/

/-- R150: `l` is a border of `S[0..k]`: a proper prefix that is also a suffix. -/
def IsBorder (S : Nat → Option Byte) (k l : Nat) : Prop := l ≤ k ∧ ∀ q, q < l → S q = S (k + 1 - l + q)

/-- R150: `t[k]`, the longest border. -/
def IsFailureEntry (S : Nat → Option Byte) (k l : Nat) : Prop :=
  IsBorder S k l ∧ ∀ l', IsBorder S k l' → l' ≤ l

/-- `T[0..m)` holds the failure table of the current lookahead as far as entry `upTo` (R151, R154). -/
def TableUpTo (s : State) (upTo : Nat) : Prop :=
  ∀ k, k < upTo → ∃ b, s.t.read k = some b ∧ IsFailureEntry s.laByte k b.toNat

/-- R177: the first `l` lookahead bytes occur at dictionary offset `o`, perhaps running into the lookahead. -/
def MatchesAt (s : State) (o l : Nat) : Prop := ∀ q, q < l → s.textByte (o + q) = s.laByte q

/-- R177: `(o, len)` is the longest match that starts inside the dictionary, at its oldest start, or `(0, 0)`. -/
structure IsLongestMatch (s : State) (o len : Nat) : Prop where
  len_le : len ≤ s.laSize
  longest : ∀ o' l, o' < s.dictSize → l ≤ s.laSize → MatchesAt s o' l → l ≤ len
  found : len ≠ 0 → o < s.dictSize ∧ MatchesAt s o len ∧ ∀ o', o' < o → ¬ MatchesAt s o' len
  empty : len = 0 → o = 0

/-! ## Runs -/

/-- The command that starts a run of an engine (R91). -/
def startCommand : Engine → Instr
  | .compress => .cmdCompress 0
  | .decompress => .cmdDecompress 0

/-- The states of one run, from Start to the state that ends it (R282): the run starts from any state that meets
the invariant and is not BUSY, and goes on by steps as long as it is BUSY. -/
inductive RunOf (e : Engine) : State → Prop where
  | start (s t : State) (inv : Inv s) (ready : s.runState ≠ .busy)
      (run : exec (startCommand e) s = .next t) : RunOf e t
  | step (s t : State) (prev : RunOf e s) (busy : s.runState = .busy) (next : step s = .next t) : RunOf e t

/-! ## What a stream stands for -/

/-- `r` bytes copied one at a time from `d` positions back (R86, R245); `none` where that is before the first
output byte (R246). -/
def copyBytes (d : Nat) : Nat → List Byte → Option (List Byte)
  | 0, out => some out
  | r + 1, out =>
    if d ≤ out.length then
      match out[out.length - d]? with
      | some b => copyBytes d r (out ++ [b])
      | none => none
    else none

/-- The output after one wire form (R82, R84, R86); no other instruction is part of a stream. -/
def expandForm (out : List Byte) : Instr → Option (List Byte)
  | .ctrlByte _ => some out
  | .lit v => some (out ++ [v])
  | .bref off lm1 => copyBytes (off.toNat + 1) (lm1.toNat + 1) out
  | .cmdCompress _ => none
  | .cmdDecompress _ => none
  | .cmdSetMode _ _ => none
  | .rdCtrl => none
  | .rdStatus => none
  | .winInit => none
  | .fill => none
  | .shift _ => none
  | .buildTable => none
  | .search => none
  | .policy _ _ => none
  | .accept _ => none
  | .flush _ => none
  | .finish => none
  | .emit _ _ => none
  | .compressRun => none
  | .decRun => none
  | .put _ _ => none
  | .copy _ _ => none
  | .needByte _ => none
  | .decompressRun => none
  | .abort _ _ => none
  | .reset _ => none

/-- The bytes a sequence of wire forms stands for, after the output `out`. -/
def expandForms (out : List Byte) : List Instr → Option (List Byte)
  | [] => some out
  | i :: is =>
    match expandForm out i with
    | some out' => expandForms out' is
    | none => none

end Sys2Proof.Machine
end

