-- ==== Sys2Proof/Certificates/Slice0/Obligations.lean ====
section
/-! DEFINITION. The statements for the provers, spread over the rules of spec/. Each docstring names the rule it
formalises; where a clause is the model's own convention the docstring names the log entry. -/

section

open Sys2Proof Sys2Proof.Machine

/-! ## Encoding -/

/-- R82, R84, R85, R91: a few words written out from the spec's encodings decode to the forms they stand for. -/
def Obligations.WrittenOutWordsDecode : Prop :=
  decode ⟨8, 0#8⟩ (.wire [0b01100000#8]) = .ok (.ctrlByte 0x60) ∧
  decode ⟨0, 0b01111111#8⟩ (.wire [0b01000001#8]) = .ok (.lit 0x41) ∧
  decode ⟨0, 0b10000000#8⟩ (.wire [0b00000001#8, 0b00000101#8]) = .ok (.bref 0x01 0x05) ∧
  decode ⟨7, 0b00000001#8⟩ (.wire [0x00#8, 0xFF#8]) = .ok (.bref 0x00 0xFF) ∧
  decode ⟨8, 0⟩ (.access ⟨0, 4, .write 0b01#32⟩) = .ok (.cmdCompress 0) ∧
  decode ⟨8, 0⟩ (.access ⟨0, 4, .write 0b11#32⟩) = .ok (.cmdDecompress 0) ∧
  decode ⟨8, 0⟩ (.access ⟨0, 4, .write 0b10#32⟩) = .ok (.cmdSetMode 0 1) ∧
  decode ⟨8, 0⟩ (.access ⟨0, 4, .write 0xFFFFFFFD#32⟩) = .ok (.cmdCompress 0x3FFFFFFF) ∧
  decode ⟨8, 0⟩ (.access ⟨0, 4, .read⟩) = .ok .rdCtrl ∧
  decode ⟨8, 0⟩ (.access ⟨4, 4, .read⟩) = .ok .rdStatus

/-- R82 to R94: an instruction is what its encoding decodes to exactly where it stands, and nothing else has that
encoding. -/
def Obligations.DecodeAndEncodeAgree : Prop :=
  ∀ (p : WirePos) (e : Encoded) (i : Instr), decode p e = .ok i ↔ (encode i = e ∧ i.standsAt p = true)

/-- R80, R81, R88: the stream of any token sequence is read back as exactly its control bytes and tokens. -/
def Obligations.FramedStreamDecodesBack : Prop :=
  ∀ ts : List TokReg, decodeStream (frameTokens ts) = .ok (frameInstrs ts)

/-- R216, R83: token `k` stands in slot `k mod 8` of group `k div 8`, its control bit says its kind, and the bits
of slots without a token are 0. -/
def Obligations.TokenKStandsInItsSlot : Prop :=
  ∀ (ts : List TokReg) (k : Nat) (t : TokReg), ts[k]? = some t →
    ∃ g, (groupsOf ts)[k / 8]? = some g ∧ g[k % 8]? = some t ∧
      kindBit (controlByte g) (k % 8) = t.kind ∧
      ∀ s, g.length ≤ s → s < 8 → kindBit (controlByte g) s = false

/-- R217: the length of a stream is its groups, its tokens and its back-references together. -/
def Obligations.FramedStreamLength : Prop :=
  ∀ ts : List TokReg,
    (frameTokens ts).length = (ts.length + 7) / 8 + ts.length + (ts.filter (·.kind)).length

/-! ## The step -/

/-- A wire byte that completes a form runs that form, after the byte is taken from the channel; a host access
that is an instruction runs it (R94, R240, R270). What the step adds: the move is taken off the list, and a byte
delivered joins `inTaken` (log 1, log 19). That a byte for NeedByte(firstByte) at a slot other than 0, which no run
meets, is read by that slot, at slot 8 as a control byte, is the model's choice (log 26). -/
def Obligations.StepRunsTheDecodedInstruction : Prop :=
  (∀ (s : State) (b : Byte) (rest : List Move) (i : Instr),
    s.moves = .input (.byte b) :: rest →
    (s.phase = .dToken ∨ ∃ site, s.phase = .dNeed site) →
    decodeWire ⟨s.slot, s.ctl⟩ (s.phase.heldBytes ++ [b]) = .ok (i, []) →
    step s = exec i { s with moves := rest, inTaken := s.inTaken ++ [b] }) ∧
  (∀ (s : State) (a : HostAccess) (rest : List Move) (i : Instr),
    s.moves = .host a :: rest → decodeHost a = .ok i →
    step s = exec i { s with moves := rest }) ∧
  (∀ (s : State) (f : Inflight) (rest : List Move),
    s.moves = .reset f :: rest → step s = exec (.reset f) { s with moves := rest })

/-- R88, R248: the first byte of a back-reference is held, and NeedByte asks for the second. That NeedByte(firstByte)
at a slot from 1 to 7, which no run meets, reads its byte by that slot is the model's choice (log 26). -/
def Obligations.FirstReferenceByteAsksForTheSecond : Prop :=
  ∀ (s : State) (b : Byte) (rest : List Move),
    s.moves = .input (.byte b) :: rest →
    (s.phase = .dToken ∨ s.phase = .dNeed .firstByte) →
    s.slot.val < 8 → s.ctl.getLsbD (7 - s.slot.val) = true →
    step s = .next { s with
      moves := rest, inTaken := s.inTaken ++ [b], phase := .dNeed (.lengthByte b) }

/-- R9, R283: with no move pending the state stays (log 2), and an answer to no outstanding transaction has no
meaning (log 15). -/
def Obligations.WaitsAndUnrequestedAnswers : Prop :=
  (∀ s : State, s.moves = [] → step s = .next s) ∧
  (∀ (s : State) (a : InAnswer) (rest : List Move),
    s.moves = .input a :: rest → s.phase.awaitsInput = false → step s = .refused .unrequestedAnswer) ∧
  (∀ (s : State) (a : OutAnswer) (rest : List Move),
    s.moves = .output a :: rest → s.phase.offers = none → step s = .refused .unrequestedAnswer)

/-- R67, R71: in a run, a step consumes exactly the byte the input channel delivered and appends to the output exactly
the byte the output channel accepted, and neither stream is changed otherwise. (A reset is log 11.) -/
def Obligations.StreamsGrowByTheAnsweredByte : Prop :=
  ∀ (s t : State) (m : Move) (rest : List Move), s.runState = .busy → s.moves = m :: rest →
    (∀ f, m ≠ .reset f) → step s = .next t →
    t.moves = rest ∧
    t.inTaken = s.inTaken ++ (match m with | .input (.byte b) => [b] | _ => []) ∧
    t.outTaken = s.outTaken ++ (match m with | .output .ok => s.phase.offers.toList | _ => [])

/-! ## The host registers -/

/-- R281, R45, R91: a start command while not BUSY writes the run-start column and enters the engine's run, for every
value of the reserved bits; nothing else changes. That the new run's streams are empty is log 19. -/
def Obligations.StartWritesTheRunStartColumn : Prop :=
  ∀ (r : BitVec 30) (s : State), s.runState ≠ .busy →
    exec (.cmdCompress r) s = .next { s with
      dictTl := 0, dictHd := 0, laHd := 0, eofSeen := false, n := 0, c := 0,
      cursor := 0, filled := 0, ctl := 0, slot := 8, mode := .compress, runState := .busy,
      errClass := none, errno := 0, phase := .cRead, inTaken := [], outTaken := [] } ∧
    exec (.cmdDecompress r) s = .next { s with
      dictTl := 0, dictHd := 0, laHd := 0, eofSeen := false, n := 0, c := 0,
      cursor := 0, filled := 0, ctl := 0, slot := 8, mode := .decompress, runState := .busy,
      errClass := none, errno := 0, phase := .dToken, inTaken := [], outTaken := [] }

/-- R276: a CTRL write with START 0 while not BUSY changes MODE to bit 1 of the word and nothing else, whatever its
bits 31:2 are. -/
def Obligations.SetModeChangesOnlyMode : Prop :=
  (∀ (r : BitVec 30) (m : BitVec 1) (s : State), s.runState ≠ .busy →
    exec (.cmdSetMode r m) s = .next { s with mode := if m = 0 then .compress else .decompress }) ∧
  (∀ (w : Word) (s : State) (rest : List Move), s.runState ≠ .busy → w.getLsbD 0 = false →
    s.moves = .host ⟨0, 4, .write w⟩ :: rest →
    step s = .next { s with
      moves := rest, mode := if w.getLsbD 1 then .decompress else .compress })

/-- R277: while BUSY a write to CTRL, of any word, has no effect on MODE, on the run or on anything else. -/
def Obligations.CtrlWriteWhileBusyHasNoEffect : Prop :=
  (∀ (r : BitVec 30) (m : BitVec 1) (s : State), s.runState = .busy →
    exec (.cmdCompress r) s = .next s ∧ exec (.cmdDecompress r) s = .next s ∧
    exec (.cmdSetMode r m) s = .next s) ∧
  (∀ (w : Word) (s : State) (rest : List Move), s.runState = .busy →
    s.moves = .host ⟨0, 4, .write w⟩ :: rest → step s = .next { s with moves := rest })

/-- R278: a CTRL read returns MODE in bit 1 and 0 elsewhere, with no side effect. -/
def Obligations.CtrlReadReturnsMode : Prop :=
  ∀ s : State,
    exec .rdCtrl s = .next { s with
      hostData := some (match s.mode with | .compress => 0x00000000 | .decompress => 0x00000002) }

/-- R279, R92: a STATUS read returns STATE, ERRCLASS and ERRNO in their fields and 0 in the reserved ones, with no
side effect; a write of STATUS is ignored. -/
def Obligations.StatusReadReturnsTheFields : Prop :=
  (∀ s : State, ∃ w : Word, exec .rdStatus s = .next { s with hostData := some w } ∧
    w.extractLsb' 0 2 = (match s.runState with | .idle => 0 | .busy => 1 | .done => 2 | .error => 3) ∧
    w.extractLsb' 2 2 = 0 ∧
    w.extractLsb' 4 4 = (match s.errClass with
      | none => 0 | some .readError => 1 | some .writeError => 2 | some .truncated => 3
      | some .badReference => 4) ∧
    w.extractLsb' 8 8 = 0 ∧
    w.extractLsb' 16 16 = s.errno) ∧
  (∀ (s : State) (w : Word) (rest : List Move),
    s.moves = .host ⟨4, 4, .write w⟩ :: rest → step s = .next { s with moves := rest })

/-- R280, R66: a host access is refused exactly when it is not a whole 32-bit word at offset 0 or 4. -/
def Obligations.OnlyWholeWordAccessesAreAnswered : Prop :=
  ∀ (s : State) (a : HostAccess) (rest : List Move), s.moves = .host a :: rest →
    ((a.size = 4 ∧ (a.offset = 0 ∨ a.offset = 4)) → ∃ t, step s = .next t) ∧
    (¬ (a.size = 4 ∧ (a.offset = 0 ∨ a.offset = 4)) → ∃ why, step s = .refused (.rejected why))

/-- R285, R277: no host access changes a run in progress: apart from the move taken and the word read, the state is
as before. -/
def Obligations.HostAccessLeavesARunAlone : Prop :=
  ∀ (s t : State) (a : HostAccess) (rest : List Move), s.runState = .busy → s.moves = .host a :: rest →
    step s = .next t → t = { s with moves := rest, hostData := t.hostData }

/-- R285: a run in progress ends only by its own completion, by an error, or by a hardware reset, and the host has
no command to stop it. No host access leaves BUSY. DONE comes by `End` to Fill or at a token start, or by `Ok` to the
last byte of Finish's group. ERROR comes by `Err` to the outstanding transaction, by `End` to NeedByte, or by a
reference past `filled`, each with its class. IDLE comes by a reset. -/
def Obligations.ARunEndsByCompletionErrorOrReset : Prop :=
  ∀ (s t : State) (m : Move) (rest : List Move), Inv s → s.runState = .busy → s.moves = m :: rest →
    step s = .next t →
    (∀ a, m = .host a → t.runState = .busy) ∧
    (t.runState = .done →
      (m = .input .endOfInput ∧ (s.phase = .cRead ∨ s.phase = .dToken)) ∨
      (m = .output .ok ∧ ∃ b k, s.phase = .cWrite b k .finish ∧ s.flushBytes.length = k + 1)) ∧
    (t.runState = .error →
      (∃ e, m = .input (.err e) ∧ s.phase.awaitsInput = true ∧ t.errClass = some .readError) ∨
      (∃ b e, m = .output (.err e) ∧ s.phase.offers = some b ∧ t.errClass = some .writeError) ∨
      (∃ site, m = .input .endOfInput ∧ s.phase = .dNeed site ∧ t.errClass = some .truncated) ∨
      (∃ off lm1, m = .input (.byte lm1) ∧ s.phase = .dNeed (.lengthByte off) ∧
        s.filled.val < off.toNat + 1 ∧ t.errClass = some .badReference)) ∧
    (t.runState = .idle → ∃ f, m = .reset f)

/-! ## Reset and errors -/

/-- R45: the state right after reset: the listed value of every register, STATE IDLE, and no transaction outstanding.
(What the memories and TOK hold there is the model's choice, log 4 and log 5, and not stated.) -/
def Obligations.ResetStateHoldsTheResetColumn : Prop :=
  core.reset.dictTl = 0 ∧ core.reset.dictHd = 0 ∧ core.reset.laHd = 0 ∧ core.reset.eofSeen = false ∧
  core.reset.n = 0 ∧ core.reset.c = 0 ∧ core.reset.cursor = 0 ∧ core.reset.filled = 0 ∧
  core.reset.ctl = 0 ∧ core.reset.slot = 8 ∧ core.reset.mode = .compress ∧ core.reset.runState = .idle ∧
  core.reset.errClass = none ∧ core.reset.errno = 0 ∧ core.reset.phase = .idle

/-- R340, R45: a hardware reset completes from every state, gives every register its value in the reset column, and
leaves no channel transaction outstanding. That the list of moves and the word last read stay is the model's choice
(log 19). -/
def Obligations.ResetGivesTheResetColumn : Prop :=
  ∀ (f : Inflight) (s : State), ∃ t, exec (.reset f) s = .next t ∧
    t.runState = .idle ∧ t.errClass = none ∧ t.errno = 0 ∧ t.mode = .compress ∧ t.phase = .idle ∧
    t.dictTl = 0 ∧ t.dictHd = 0 ∧ t.laHd = 0 ∧ t.eofSeen = false ∧ t.n = 0 ∧ t.c = 0 ∧
    t.cursor = 0 ∧ t.filled = 0 ∧ t.ctl = 0 ∧ t.slot = 8 ∧
    t.phase.awaitsInput = false ∧ t.phase.offers = none ∧
    t.moves = s.moves ∧ t.hostData = s.hostData

/-- R341: a reset writes no output of its own. Only the byte of an `OutWrite` outstanding at the reset may join the
output, and only the platform says whether it did; likewise for the byte of an outstanding `InRead` (log 11). -/
def Obligations.ResetWritesNoOutput : Prop :=
  ∀ (f : Inflight) (s t : State), exec (.reset f) s = .next t →
    (f.outDelivered = false → t.outTaken = s.outTaken) ∧
    (s.phase.offers = none → t.outTaken = s.outTaken) ∧
    (∀ b, s.phase.offers = some b → f.outDelivered = true → t.outTaken = s.outTaken ++ [b]) ∧
    (s.phase.awaitsInput = false → t.inTaken = s.inTaken) ∧
    (f.inByte = none → t.inTaken = s.inTaken)

/-- R301, R306: `raise E(e)` completes from every state, for every class and number; it records the class, and the
number: a channel's, with `GENERIC_IO_ERROR` for 0, and always `GENERIC_IO_ERROR` for TRUNCATED and BAD_REFERENCE. So
the number is not 0. It sets STATE and the program point to ERROR, leaves no transaction outstanding, and leaves
MODE, the streams and the host's side as they were. -/
def Obligations.AbortRecordsTheError : Prop :=
  ∀ (err : RunError) (e : Errno) (s : State), ∃ t, exec (.abort err e) s = .next t ∧
    t.errClass = some err ∧
    t.errno = (match err with
      | .readError => if e = 0 then Config.genericIoError else e
      | .writeError => if e = 0 then Config.genericIoError else e
      | .truncated => Config.genericIoError
      | .badReference => Config.genericIoError) ∧
    t.errno ≠ 0 ∧
    t.runState = .error ∧ t.phase = .error ∧ t.phase.awaitsInput = false ∧ t.phase.offers = none ∧
    t.mode = s.mode ∧ t.moves = s.moves ∧ t.inTaken = s.inTaken ∧ t.outTaken = s.outTaken ∧
    t.hostData = s.hostData ∧ t.result = s.result

/-- R302: `Err(e)` to any outstanding `InRead` is READ_ERROR; the byte asked for is not consumed, and earlier bytes
stay consumed. -/
def Obligations.ReadErrorAbortsTheRun : Prop :=
  ∀ (s : State) (e : Errno) (rest : List Move), s.phase.awaitsInput = true →
    s.moves = .input (.err e) :: rest →
    ∃ t, step s = .next t ∧ t.errClass = some .readError ∧
      t.errno = (if e = 0 then Config.genericIoError else e) ∧ t.runState = .error ∧ t.phase = .error ∧
      t.inTaken = s.inTaken ∧ t.outTaken = s.outTaken ∧ t.moves = rest

/-- R303: `Err(e)` to any outstanding `OutWrite` is WRITE_ERROR; the byte offered is not in the output stream. -/
def Obligations.WriteErrorAbortsTheRun : Prop :=
  ∀ (s : State) (b : Byte) (e : Errno) (rest : List Move), s.phase.offers = some b →
    s.moves = .output (.err e) :: rest →
    ∃ t, step s = .next t ∧ t.errClass = some .writeError ∧
      t.errno = (if e = 0 then Config.genericIoError else e) ∧ t.runState = .error ∧ t.phase = .error ∧
      t.inTaken = s.inTaken ∧ t.outTaken = s.outTaken ∧ t.moves = rest

/-- R304, R248: `End` where NeedByte waits is TRUNCATED with `GENERIC_IO_ERROR`. -/
def Obligations.EndInsideATokenIsTruncated : Prop :=
  ∀ (s : State) (site : NeedSite) (rest : List Move), s.phase = .dNeed site →
    s.moves = .input .endOfInput :: rest →
    ∃ t, step s = .next t ∧ t.errClass = some .truncated ∧ t.errno = Config.genericIoError ∧
      t.runState = .error ∧ t.phase = .error ∧ t.outTaken = s.outTaken

/-- R247: `End` at the start of a token, at a group boundary or inside a group, ends the run DONE with everything else
as it was. -/
def Obligations.EndAtATokenStartIsClean : Prop :=
  ∀ (s : State) (rest : List Move), s.phase = .dToken → s.moves = .input .endOfInput :: rest →
    step s = .next { s with moves := rest, runState := .done, phase := .done }

/-! ## The window -/

/-- R110 to R113: the ring helpers by their formulas, with wrapping subtraction. -/
def Obligations.RingHelpersFollowTheirFormulas : Prop :=
  ∀ tl hd : Cursor,
    ringSize tl hd = (hd.toNat + 2 ^ 64 - tl.toNat) % 2 ^ 64 ∧
    ringCapacity tl hd = 256 - ringSize tl hd ∧
    mask hd = hd.toNat % 512 ∧
    ringRun hd = 512 - hd.toNat % 512 ∧ 1 ≤ ringRun hd ∧ ringRun hd ≤ 512

/-- R130: WinInit sets the three cursors and `eof_seen` to 0 and writes nothing else. -/
def Obligations.WinInitEmptiesTheWindow : Prop :=
  ∀ s : State, exec .winInit s = .next { s with dictTl := 0, dictHd := 0, laHd := 0, eofSeen := false }

/-- R131, R133: Fill returns `ok` on a full lookahead and `eof` after `End`, with no transaction, and otherwise asks
for a byte. -/
def Obligations.FillReturnsOrAsksForAByte : Prop :=
  ∀ s : State,
    (s.laSize < 256 → s.eofSeen = false → exec .fill s = .next { s with phase := .cRead }) ∧
    (s.laSize < 256 → s.eofSeen = true → exec .fill s = .next { s with result := .fill .eof }) ∧
    (256 ≤ s.laSize → exec .fill s = .next { s with result := .fill .ok })

/-- R131, R271: in Fill, `Byte(b)` goes to the cell of `la.hd`, which advances by 1, and the compress driver goes on
from there: while the lookahead still has room Fill asks for the next byte, and the byte that fills the lookahead
makes the run go on to its next transaction with that byte stored. -/
def Obligations.FillStoresEachByte : Prop :=
  ∀ (s : State) (b : Byte) (rest : List Move), Inv s → s.phase = .cRead →
    s.moves = .input (.byte b) :: rest →
    ∃ bf', (∀ a, bf'.read a = if a = mask s.laHd then some b else s.bf.read a) ∧
      step s = exec .compressRun { s with
        moves := rest, inTaken := s.inTaken ++ [b], bf := bf', laHd := s.laHd + 1 } ∧
      (s.laSize + 1 < 256 → step s = .next { s with
        moves := rest, inTaken := s.inTaken ++ [b], bf := bf', laHd := s.laHd + 1 }) ∧
      (s.laSize + 1 = 256 → ∃ t, step s = .next t ∧ t.bf = bf' ∧ t.laHd = s.laHd + 1 ∧
        t.inTaken = s.inTaken ++ [b] ∧ t.eofSeen = false)

/-- R25, R131, R349: `End` in Fill sets `eof_seen`, stores nothing, and the compress driver goes on from there to its
next transaction or its end, with no `InRead` outstanding. -/
def Obligations.EndInFillIsRemembered : Prop :=
  ∀ (s : State) (rest : List Move), Inv s → s.phase = .cRead → s.moves = .input .endOfInput :: rest →
    step s = exec .compressRun { s with moves := rest, eofSeen := true } ∧
    ∃ t, step s = .next t ∧ t.eofSeen = true ∧ t.bf = s.bf ∧ t.laHd = s.laHd ∧ t.inTaken = s.inTaken ∧
      t.phase.awaitsInput = false

/-- R349, R133: after `End` a compress run asks for no further byte and `eof_seen` stays 1 as long as the run is in
progress. -/
def Obligations.EndIsFinalInACompressRun : Prop :=
  ∀ s t : State, Inv s → s.phase.engine = some .compress → s.eofSeen = true → step s = .next t →
    t.runState = .busy → t.eofSeen = true ∧ t.phase.awaitsInput = false

/-- R134: Shift(n) on its precondition moves `dict.hd` by `n` and `dict.tl` by what the dictionary has no room for,
and writes nothing else. That a Shift past the lookahead is a fault is the model's choice (log 16), which R134 and 92
D27 allow. -/
def Obligations.ShiftMovesTheCursors : Prop :=
  ∀ (n : Nat) (s : State),
    (1 ≤ n → n ≤ s.laSize → exec (.shift n) s = .next { s with
      dictHd := s.dictHd + BitVec.ofNat 64 n
      dictTl := if n > 256 - s.dictSize then s.dictTl + BitVec.ofNat 64 (n - (256 - s.dictSize))
        else s.dictTl }) ∧
    (s.laSize < n → exec (.shift n) s = .fault .shiftPrecondition)

/-- R135: after Shift(n) the dictionary has min(D + n, W) bytes and the lookahead n fewer, the window invariants
hold, and the dictionary's newest n bytes are the lookahead's first n, in order, in the same cells. -/
def Obligations.ShiftMovesBytesIntoTheDictionary : Prop :=
  ∀ (n : Nat) (s : State), WindowOk s → 1 ≤ n → n ≤ s.laSize →
    ∃ t, exec (.shift n) s = .next t ∧ t.dictSize = min (s.dictSize + n) 256 ∧ t.laSize = s.laSize - n ∧
      WindowOk t ∧ t.bf = s.bf ∧
      (∀ k, k < n → t.textByte (t.dictSize - n + k) = s.laByte k ∧
        mask (t.dictTl + BitVec.ofNat 64 (t.dictSize - n + k)) = mask (s.laTl + BitVec.ofNat 64 k)) ∧
      (∀ k, k < t.laSize → t.laByte k = s.laByte (n + k))

/-- R136: the cell Fill writes is neither a dictionary nor a lookahead cell. -/
def Obligations.FillWritesAFreeCell : Prop :=
  ∀ s : State, WindowOk s → s.laSize < 256 →
    ∀ q, q < s.dictSize + s.laSize → mask (s.dictTl + BitVec.ofNat 64 q) ≠ mask s.laHd

/-! ## The table, the search and the policy -/

/-- R151, R150: BuildTable completes and writes into `T[0..m)` the length of the longest border of each prefix of the
lookahead, leaves every other entry as it was, and writes nothing else. That `T[0]` is written when the lookahead has
one byte is the model's choice (log 18), where R152 lets a model skip the table. -/
def Obligations.BuildTableWritesTheLongestBorders : Prop :=
  ∀ s : State, WindowOk s → LiveWritten s →
    ∃ t', exec .buildTable s = .next { s with t := t' } ∧
      TableUpTo { s with t := t' } s.laSize ∧
      ∀ k, s.laSize ≤ k → t'.read k = s.t.read k

/-- R177, R170, R153: with the table of the current lookahead, Search completes, writes no state of the machine, and
returns the longest match that starts inside the dictionary at its oldest start, or (0, 0). -/
def Obligations.SearchFindsTheLongestOldestMatch : Prop :=
  ∀ s : State, WindowOk s → LiveWritten s → TableUpTo s (s.laSize - 1) →
    ∃ o len, exec .search s = .next { s with result := .search o len } ∧ IsLongestMatch s o.toNat len

/-- R171, R173: an empty lookahead or an empty dictionary gives (0, 0), whatever the memories hold. -/
def Obligations.SearchOnAnEmptySideFindsNothing : Prop :=
  ∀ s : State, s.laSize = 0 ∨ s.dictSize = 0 → exec .search s = .next { s with result := .search 0 0 }

/-- R191, R192, R194: when the length is below 2, or is 2 and the two-byte heuristic holds, Policy gives the literal
of the lookahead's first byte and shifts by 1. The token's `b` is any value (log 6). -/
def Obligations.PolicyGivesALiteral : Prop :=
  ∀ (o : Cursor) (len : Nat) (s : State) (s0 : Byte), 1 ≤ s.laSize → s.laByte 0 = some s0 →
    (len < 2 ∨ (len = 2 ∧ 3 < s.laSize ∧ s.laByte 2 = some s0 ∧
      ∃ s3 x, s.laByte 3 = some s3 ∧ s.textByte 2 = some x ∧ (s3 = s0 ∨ s3 = x))) →
    ∃ b d, exec (.policy o len) s = .next { s with
      dictHd := s.dictHd + 1
      dictTl := if 256 ≤ s.dictSize then s.dictTl + BitVec.ofNat 64 (1 - (256 - s.dictSize)) else s.dictTl
      result := .policy ⟨false, s0, b⟩
      draws := d }

/-- R193, R192: otherwise Policy gives the back-reference with `off = D - o - 1` and `lm1 = len - 1` and shifts by
`len`. A length of 2 with at most 3 lookahead bytes is always such a reference. -/
def Obligations.PolicyGivesAReference : Prop :=
  ∀ (o : Cursor) (len : Nat) (s : State) (s0 : Byte), WindowOk s → s.laByte 0 = some s0 →
    o.toNat < s.dictSize → 2 ≤ len → len ≤ s.laSize →
    (len = 2 → 3 < s.laSize →
      ∃ s2 s3 x, s.laByte 2 = some s2 ∧ s.laByte 3 = some s3 ∧ s.textByte 2 = some x ∧
        ¬ (s2 = s0 ∧ (s3 = s0 ∨ s3 = x))) →
    ∃ off lm1 : Byte, off.toNat = s.dictSize - o.toNat - 1 ∧ lm1.toNat = len - 1 ∧
      exec (.policy o len) s = .next { s with
        dictHd := s.dictHd + BitVec.ofNat 64 len
        dictTl := if len > 256 - s.dictSize then s.dictTl + BitVec.ofNat 64 (len - (256 - s.dictSize))
          else s.dictTl
        result := .policy ⟨true, off, lm1⟩ }

/-! ## The framer -/

/-- R210 to R212, R271: Accept stores its token in slot `n`, sets control bit `7 - n` for a back-reference and counts
it, after clearing `c` at the run's first token. With a full group it first offers the group's control byte, and the
token waits; when the group's last byte is answered `Ok` the token opens the next group, and the driver goes on. -/
def Obligations.AcceptStoresOrFlushesFirst : Prop :=
  ∀ (tok : TokReg) (s : State),
    (s.n.val = 0 → exec (.accept tok) s = .next { s with
      tok := s.tok.setIfInBounds 0 tok, c := if tok.kind then 0x80 else 0, n := 1 }) ∧
    (1 ≤ s.n.val → s.n.val < 8 → ∃ n' : Fin 9, n'.val = s.n.val + 1 ∧
      exec (.accept tok) s = .next { s with
        tok := s.tok.setIfInBounds s.n.val tok
        c := if tok.kind then s.c ||| (1#8 <<< (7 - s.n.val)) else s.c
        n := n' }) ∧
    (s.n.val = 8 → exec (.accept tok) s = .next { s with phase := .cWrite s.c 0 (.accept tok) }) ∧
    (∀ (b : Byte) (k : Nat) (rest : List Move), s.phase = .cWrite b k (.accept tok) →
      s.flushBytes.length = k + 1 → s.moves = .output .ok :: rest →
      step s = exec .compressRun { s with
        moves := rest, outTaken := s.outTaken ++ [b],
        tok := s.tok.setIfInBounds 0 tok, c := if tok.kind then 0x80 else 0, n := 1 })

/-- R213, R214, R215: Flush of a nonempty group, and Finish with one, offer the control byte; Finish with no token
does nothing; Emit offers its byte, from either caller; and an `Ok` to a byte of a group, from either caller of Flush,
offers the next one. Nothing else changes. -/
def Obligations.FlushFinishAndEmitOfferTheirByte : Prop :=
  ∀ (s : State) (b : Byte) (site : FlushSite) (k : Nat) (psite : PutSite),
    (1 ≤ s.n.val → exec (.flush site) s = .next { s with phase := .cWrite s.c 0 site }) ∧
    (1 ≤ s.n.val → exec .finish s = .next { s with phase := .cWrite s.c 0 .finish }) ∧
    (s.n.val = 0 → exec .finish s = .next s) ∧
    exec (.emit b (.flush k site)) s = .next { s with phase := .cWrite b k site } ∧
    exec (.emit b (.put psite)) s = .next { s with phase := .dWrite b psite } ∧
    (∀ (b' : Byte) (rest : List Move), s.phase = .cWrite b k site → s.flushBytes[k + 1]? = some b' →
      s.moves = .output .ok :: rest →
      step s = .next { s with
        moves := rest, outTaken := s.outTaken ++ [b], phase := .cWrite b' (k + 1) site })

/-- R213, R214: when every byte of the last group is answered `Ok`, the output grows by exactly the control byte and
the tokens' bytes, `a` for a literal and `a` then `b` for a back-reference, in slot order, and the run is DONE. -/
def Obligations.FinishWritesTheWholeGroup : Prop :=
  ∀ (s t : State) (rest : List Move), 1 ≤ s.n.val → exec .finish s = .next t →
    s.moves = List.replicate (1 + ((s.tok.toList.take s.n.val).flatMap
      fun tk => if tk.kind then [tk.a, tk.b] else [tk.a]).length) (.output .ok) ++ rest →
    core.run (1 + ((s.tok.toList.take s.n.val).flatMap
      fun tk => if tk.kind then [tk.a, tk.b] else [tk.a]).length) t = .next { s with
        moves := rest
        outTaken := s.outTaken ++ s.c :: (s.tok.toList.take s.n.val).flatMap
          fun tk => if tk.kind then [tk.a, tk.b] else [tk.a]
        runState := .done
        phase := .done }

/-- R271 to R273, R179, R196, R351: from a window that meets its invariants CompressRun completes: it comes to an
`InRead`, to an `OutWrite`, or to the end of the run. With room in the lookahead and no `End` seen, it asks for a
byte. With a full lookahead, or after `End`, its next token is the one Policy makes of the pair Search finds with the
table BuildTable has just built, made in full before Accept takes it; a full group is then offered, and otherwise the
driver goes on with its loop. With nothing left after `End` it runs Finish. -/
def Obligations.CompressRunComesToATransaction : Prop :=
  ∀ s : State, WindowOk s → LiveWritten s →
    (∃ t, exec .compressRun s = .next t ∧
      (t.phase = .cRead ∨ (∃ b site, t.phase = .cWrite b 0 site) ∨ (t.phase = .done ∧ t.runState = .done))) ∧
    (s.laSize < 256 → s.eofSeen = false → exec .compressRun s = .next { s with phase := .cRead }) ∧
    (1 ≤ s.laSize → (256 ≤ s.laSize ∨ s.eofSeen = true) →
      ∃ (s1 s2 s3 s4 : State) (o : Cursor) (len : Nat) (tok : TokReg),
        exec .buildTable s = .next s1 ∧
        exec .search s1 = .next s2 ∧ s2.result = .search o len ∧
        exec (.policy o len) s2 = .next s3 ∧ s3.result = .policy tok ∧
        exec (.accept tok) { s3 with result := s.result } = .next s4 ∧
        exec .compressRun s = (if s.n.val = 8 then .next s4 else exec .compressRun s4)) ∧
    (s.laSize = 0 → s.eofSeen = true →
      (s.n.val = 0 → exec .compressRun s = .next { s with runState := .done, phase := .done }) ∧
      (1 ≤ s.n.val → exec .compressRun s = exec .finish s))

/-- The model's choice (log 16): a Shift of 0 bytes and a Flush of no token, which R134 and R213 require not to be
called, are faults. -/
def Obligations.BrokenPreconditionsStop : Prop :=
  ∀ (s : State) (site : FlushSite),
    exec (.shift 0) s = .fault .shiftPrecondition ∧
    (s.n.val = 0 → exec (.flush site) s = .fault .flushPrecondition)

/-! ## The deframer -/

/-- R240, R241, R243, R248, R275: the operations that only ask for a byte or offer one: the control byte opens its
group and asks for the first token byte, a literal offers its byte, NeedByte and the two run entries wait. Nothing
else changes. -/
def Obligations.DecoderFormsReachTheirTransaction : Prop :=
  ∀ (s : State) (k : Byte) (site : PutSite) (nsite : NeedSite),
    exec (.ctrlByte k) s = .next { s with ctl := k, slot := 0, phase := .dNeed .firstByte } ∧
    exec (.lit k) s = .next { s with phase := .dWrite k .literal } ∧
    exec (.put k site) s = .next { s with phase := .dWrite k site } ∧
    exec (.needByte nsite) s = .next { s with phase := .dNeed nsite } ∧
    exec .decRun s = .next { s with phase := .dToken } ∧
    exec .decompressRun s = .next { s with phase := .dToken }

/-- R243, R249, R240: when a literal's byte is accepted it joins the output and RING at `cursor`, `cursor` and
`filled` advance, and the next slot's token is asked for. -/
def Obligations.AcceptedLiteralIsStored : Prop :=
  ∀ (s : State) (b : Byte) (rest : List Move), s.phase = .dWrite b .literal → s.slot.val < 8 →
    s.moves = .output .ok :: rest →
    ∃ (ring' : Memory) (f : Fin 257) (sl : Fin 9),
      f.val = min (s.filled.val + 1) 256 ∧ sl.val = s.slot.val + 1 ∧
      (∀ a, ring'.read a = if a = s.cursor.toNat then some b else s.ring.read a) ∧
      step s = .next { s with
        moves := rest, outTaken := s.outTaken ++ [b], ring := ring', cursor := s.cursor + 1,
        filled := f, slot := sl, phase := .dToken }

/-- R246, R305: a reference further back than `filled` is BAD_REFERENCE with `GENERIC_IO_ERROR`, and no byte of it is
output. -/
def Obligations.ReferenceBeforeTheOutputIsAnError : Prop :=
  ∀ (off lm1 : Byte) (s : State), s.filled.val < off.toNat + 1 →
    ∀ i, i = Instr.copy off lm1 ∨ i = Instr.bref off lm1 →
    ∃ t, exec i s = .next t ∧ t.errClass = some .badReference ∧ t.errno = Config.genericIoError ∧
      t.runState = .error ∧ t.phase = .error ∧ t.outTaken = s.outTaken ∧ t.inTaken = s.inTaken

/-- R245, R246: a reference within `filled` reads `RING` at `trunc_8(cursor - d)` and offers that byte, with
`lm1` steps to follow; nothing else changes. -/
def Obligations.ReferenceOffersItsFirstByte : Prop :=
  ∀ (off lm1 b : Byte) (s : State), off.toNat + 1 ≤ s.filled.val →
    s.ring.read (s.cursor - BitVec.ofNat 8 (off.toNat + 1)).toNat = some b →
    ∀ i, i = Instr.copy off lm1 ∨ i = Instr.bref off lm1 →
    exec i s = .next { s with
      phase := .dWrite b (.copy (s.cursor - BitVec.ofNat 8 (off.toNat + 1)) lm1.toNat) }

/-- R245, R246, R249: over a ring that holds the output, a copy whose every byte is accepted outputs `lm1 + 1` bytes,
each the one `off + 1` positions back at its own step, overlap included, and comes to the next token with the ring
still holding the output. -/
def Obligations.CopyRepeatsTheOutput : Prop :=
  ∀ (off lm1 : Byte) (s t : State) (rest : List Move),
    RingHoldsOutput s → off.toNat + 1 ≤ s.filled.val → s.slot.val < 8 →
    s.moves = List.replicate (lm1.toNat + 1) (.output .ok) ++ rest →
    exec (.copy off lm1) s = .next t →
    ∃ u, core.run (lm1.toNat + 1) t = .next u ∧
      copyBytes (off.toNat + 1) (lm1.toNat + 1) s.outTaken = some u.outTaken ∧
      u.phase = .dToken ∧ u.slot.val = s.slot.val + 1 ∧ u.moves = rest ∧ u.inTaken = s.inTaken ∧
      RingHoldsOutput u

/-- R249: while a decompress run is in progress the ring holds the last output bytes, and every step keeps it so. -/
def Obligations.RingHoldsTheLastOutput : Prop :=
  ∀ s t : State, Inv s → (s.phase.engine = some .decompress → RingHoldsOutput s) → step s = .next t →
    (t.phase.engine = some .decompress → RingHoldsOutput t)

/-! ## Invariants -/

/-- The invariant holds right after reset. -/
def Obligations.InvHoldsAtReset : Prop := Inv State.reset

/-- R24, R39 to R41, R60, R63, R212, R246, R284, R306: every step keeps the invariant. -/
def Obligations.StepKeepsInv : Prop := ∀ s t : State, Inv s → step s = .next t → Inv t

/-- R63, R134, R179, 92 D27: from a state that meets the invariant no step is a model fault. -/
def Obligations.NoFaultIsReached : Prop := ∀ (s : State) (f : Fault), Inv s → step s ≠ .fault f

/-- R9, R350: from a state that meets the invariant, an answer to the outstanding transaction always lets the machine
go on. -/
def Obligations.AnAnsweredTransactionGoesOn : Prop :=
  ∀ (s : State) (m : Move) (rest : List Move), Inv s → s.moves = m :: rest →
    ((s.phase.awaitsInput = true ∧ ∃ a, m = .input a) ∨ ((∃ b, s.phase.offers = some b) ∧ ∃ a, m = .output a)) →
    ∃ t, step s = .next t

/-- R72, R282: a run that waits on an `OutWrite` becomes DONE only on its answer `Ok`, with that byte in the output. -/
def Obligations.DoneOnlyAfterTheLastWrite : Prop :=
  ∀ (s t : State) (b : Byte), Inv s → s.phase.offers = some b → step s = .next t → t.runState = .done →
    ∃ rest, s.moves = .output .ok :: rest ∧ t.outTaken = s.outTaken ++ [b] ∧ t.moves = rest

/-- R2, R20: the engines share no state: a step of one engine's run that ends neither in an error nor in a reset
leaves every register and memory of the other engine as it was. -/
def Obligations.EnginesLeaveEachOtherAlone : Prop :=
  ∀ (s t : State), Inv s → step s = .next t → t.phase ≠ .error → (∀ f rest, s.moves ≠ .reset f :: rest) →
    (s.phase.engine = some .decompress →
      t.bf = s.bf ∧ t.dictTl = s.dictTl ∧ t.dictHd = s.dictHd ∧ t.laHd = s.laHd ∧ t.eofSeen = s.eofSeen ∧
      t.t = s.t ∧ t.n = s.n ∧ t.c = s.c ∧ t.tok = s.tok) ∧
    (s.phase.engine = some .compress →
      t.ring = s.ring ∧ t.cursor = s.cursor ∧ t.filled = s.filled ∧ t.ctl = s.ctl ∧ t.slot = s.slot)

/-! ## Whole runs -/

/-- R240, R282: a decompress run that ends DONE has output exactly what the wire forms of its input stand for. -/
def Obligations.DecompressRunDecodesItsInput : Prop :=
  ∀ t : State, RunOf .decompress t → t.runState = .done →
    ∃ is, decodeStream t.inTaken = .ok is ∧ expandForms [] is = some t.outTaken

/-- R274, R217: a compress run that ends DONE has output the framing of a token sequence that stands for its input. -/
def Obligations.CompressRunFramesItsInput : Prop :=
  ∀ t : State, RunOf .compress t → t.runState = .done →
    ∃ ts, t.outTaken = frameTokens ts ∧ expandForms [] (frameInstrs ts) = some t.inTaken

/-- R351: a compress run over N bytes that ends DONE has output at most N + ceil(N / 8) bytes. -/
def Obligations.CompressedLengthIsBounded : Prop :=
  ∀ t : State, RunOf .compress t → t.runState = .done →
    t.outTaken.length ≤ t.inTaken.length + (t.inTaken.length + 7) / 8

/-- R286: when a compress run over X ends DONE with output Y, a decompress run that has read a prefix of Y has not
raised BAD_REFERENCE, and one that ends DONE over Y has output X. -/
def Obligations.DecompressUndoesCompress : Prop :=
  ∀ t u : State, RunOf .compress t → t.runState = .done → RunOf .decompress u →
    (u.inTaken <+: t.outTaken → u.errClass ≠ some .badReference) ∧
    (u.runState = .done → u.inTaken = t.outTaken → u.outTaken = t.inTaken)

end
end

