-- ==== Sys2Proof/Laws/Memory.lean ====
section
/-! SUPPORT. The memory laws: a cell just written reads back, every other cell is left alone, and a write keeps the
canonical form and the bound. -/

namespace Sys2Proof.Machine

@[simp] theorem Memory.read_nil (a : Nat) : Memory.read [] a = none := rfl

theorem Memory.read_cons (k : Nat) (v : Byte) (m : Memory) (a : Nat) :
    Memory.read ((k, v) :: m) a = if a = k then some v else m.read a := rfl

@[simp] theorem Memory.read_write_same (m : Memory) (a : Nat) (v : Byte) : (m.write a v).read a = some v := by
  induction m with
  | nil => simp [Memory.write, Memory.read]
  | cons cell m ih =>
    obtain ⟨k, w⟩ := cell
    simp only [Memory.write]
    split
    · simp [Memory.read]
    · split
      · simp [Memory.read]
      · simp [Memory.read, *]

theorem Memory.read_write_other (m : Memory) {a b : Nat} (v : Byte) (h : b ≠ a) :
    (m.write a v).read b = m.read b := by
  induction m with
  | nil => simp [Memory.write, Memory.read, Memory.unlisted, h]
  | cons cell m ih =>
    obtain ⟨k, w⟩ := cell
    simp only [Memory.write]
    split
    · simp [Memory.read, h]
    · split
      · subst_vars
        simp [Memory.read, h]
      · simp only [Memory.read, ih]

/-- The one read-after-write law, for every pair of cells. -/
theorem Memory.read_write (m : Memory) (a b : Nat) (v : Byte) :
    (m.write a v).read b = if b = a then some v else m.read b := by
  split
  · subst_vars; simp
  · exact Memory.read_write_other m v ‹_›

theorem Memory.rising_write (m : Memory) (lo a : Nat) (v : Byte) (h : m.rising lo = true) (ha : lo ≤ a) :
    (m.write a v).rising lo = true := by
  induction m generalizing lo with
  | nil => simp [Memory.write, Memory.rising, ha]
  | cons cell m ih =>
    obtain ⟨k, w⟩ := cell
    simp only [Memory.rising, Bool.and_eq_true, decide_eq_true_eq] at h
    obtain ⟨hk, hm⟩ := h
    simp only [Memory.write]
    split
    · simp [Memory.rising, ha, hm]
      omega
    · split
      · subst_vars
        simp [Memory.rising, ha, hm]
      · simp only [Memory.rising, Bool.and_eq_true, decide_eq_true_eq]
        exact ⟨hk, ih (k + 1) hm (by omega)⟩

/-- A write keeps the canonical form. -/
theorem Memory.wf_write (m : Memory) (a : Nat) (v : Byte) (h : m.wf = true) : (m.write a v).wf = true :=
  Memory.rising_write m 0 a v h (Nat.zero_le a)

/-- A write at an index below the size keeps every index below it. -/
theorem Memory.within_write (m : Memory) (size a : Nat) (v : Byte) (h : m.within size = true) (ha : a < size) :
    (m.write a v).within size = true := by
  induction m with
  | nil => simp [Memory.write, Memory.within, ha]
  | cons cell m ih =>
    obtain ⟨k, w⟩ := cell
    simp only [Memory.within, List.all_cons, Bool.and_eq_true, decide_eq_true_eq] at h ih ⊢
    simp only [Memory.write]
    split
    · simp only [List.all_cons, Bool.and_eq_true, decide_eq_true_eq]
      exact ⟨ha, h⟩
    · split
      · simp only [List.all_cons, Bool.and_eq_true, decide_eq_true_eq]
        exact ⟨ha, h.2⟩
      · simp only [List.all_cons, Bool.and_eq_true, decide_eq_true_eq]
        exact ⟨h.1, ih h.2⟩

/-- The reset memories are in canonical form. -/
theorem reset_memories : State.reset.bf.wf = true ∧ State.reset.t.wf = true ∧ State.reset.ring.wf = true := by
  decide

/-! ## The two wrapping index spaces -/

theorem mask_eq (v : Cursor) : mask v = v.toNat % 512 := by
  simp [mask, BitVec.extractLsb'_toNat]

theorem mask_lt (v : Cursor) : mask v < 512 := by
  rw [mask_eq]; omega

/-- R114: two cursors at most 511 apart, and different, have different cells. -/
theorem mask_ne_of_offset (v : Cursor) {k l : Nat} (hk : k < 512) (hl : l < 512) (h : k ≠ l) :
    mask (v + BitVec.ofNat 64 k) ≠ mask (v + BitVec.ofNat 64 l) := by
  simp only [mask_eq, BitVec.toNat_add, BitVec.toNat_ofNat]
  omega

/-- Every store into a memory of the machine lands inside it. -/
theorem byte_index_lt (b : Byte) : b.toNat < 256 := b.isLt

/-- `storeInput` keeps the canonical form of BF, and its bound. -/
theorem storeInput_keeps_bf (b : Byte) (s : State) (h : s.bf.wf = true ∧ s.bf.within 512 = true) :
    (storeInput b s).bf.wf = true ∧ (storeInput b s).bf.within 512 = true :=
  ⟨Memory.wf_write _ _ _ h.1, Memory.within_write _ _ _ _ h.2 (mask_lt _)⟩

/-- `storeOutput` keeps the canonical form of RING, and its bound. -/
theorem storeOutput_keeps_ring (b : Byte) (s : State) (h : s.ring.wf = true ∧ s.ring.within 256 = true) :
    (storeOutput b s).ring.wf = true ∧ (storeOutput b s).ring.within 256 = true :=
  ⟨Memory.wf_write _ _ _ h.1, Memory.within_write _ _ _ _ h.2 (byte_index_lt _)⟩

end Sys2Proof.Machine
end

