-- ==== Sys2Proof/Laws/State.lean ====
section
/-! SUPPORT. What each update of the state does to each field, one lemma each, true by rfl. -/

namespace Sys2Proof.Machine

/-! ## setPhase -/

@[simp] theorem setPhase_bf (p : Phase) (s : State) : (setPhase p s).bf = s.bf := rfl
@[simp] theorem setPhase_dictTl (p : Phase) (s : State) : (setPhase p s).dictTl = s.dictTl := rfl
@[simp] theorem setPhase_dictHd (p : Phase) (s : State) : (setPhase p s).dictHd = s.dictHd := rfl
@[simp] theorem setPhase_laHd (p : Phase) (s : State) : (setPhase p s).laHd = s.laHd := rfl
@[simp] theorem setPhase_eofSeen (p : Phase) (s : State) : (setPhase p s).eofSeen = s.eofSeen := rfl
@[simp] theorem setPhase_t (p : Phase) (s : State) : (setPhase p s).t = s.t := rfl
@[simp] theorem setPhase_n (p : Phase) (s : State) : (setPhase p s).n = s.n := rfl
@[simp] theorem setPhase_c (p : Phase) (s : State) : (setPhase p s).c = s.c := rfl
@[simp] theorem setPhase_tok (p : Phase) (s : State) : (setPhase p s).tok = s.tok := rfl
@[simp] theorem setPhase_ring (p : Phase) (s : State) : (setPhase p s).ring = s.ring := rfl
@[simp] theorem setPhase_cursor (p : Phase) (s : State) : (setPhase p s).cursor = s.cursor := rfl
@[simp] theorem setPhase_filled (p : Phase) (s : State) : (setPhase p s).filled = s.filled := rfl
@[simp] theorem setPhase_ctl (p : Phase) (s : State) : (setPhase p s).ctl = s.ctl := rfl
@[simp] theorem setPhase_slot (p : Phase) (s : State) : (setPhase p s).slot = s.slot := rfl
@[simp] theorem setPhase_mode (p : Phase) (s : State) : (setPhase p s).mode = s.mode := rfl
@[simp] theorem setPhase_runState (p : Phase) (s : State) : (setPhase p s).runState = s.runState := rfl
@[simp] theorem setPhase_errClass (p : Phase) (s : State) : (setPhase p s).errClass = s.errClass := rfl
@[simp] theorem setPhase_errno (p : Phase) (s : State) : (setPhase p s).errno = s.errno := rfl
@[simp] theorem setPhase_phase (p : Phase) (s : State) : (setPhase p s).phase = p := rfl
@[simp] theorem setPhase_moves (p : Phase) (s : State) : (setPhase p s).moves = s.moves := rfl
@[simp] theorem setPhase_inTaken (p : Phase) (s : State) : (setPhase p s).inTaken = s.inTaken := rfl
@[simp] theorem setPhase_outTaken (p : Phase) (s : State) : (setPhase p s).outTaken = s.outTaken := rfl
@[simp] theorem setPhase_hostData (p : Phase) (s : State) : (setPhase p s).hostData = s.hostData := rfl
@[simp] theorem setPhase_result (p : Phase) (s : State) : (setPhase p s).result = s.result := rfl
@[simp] theorem setPhase_draws (p : Phase) (s : State) : (setPhase p s).draws = s.draws := rfl

/-! ## setEof -/

@[simp] theorem setEof_bf (s : State) : (setEof s).bf = s.bf := rfl
@[simp] theorem setEof_dictTl (s : State) : (setEof s).dictTl = s.dictTl := rfl
@[simp] theorem setEof_dictHd (s : State) : (setEof s).dictHd = s.dictHd := rfl
@[simp] theorem setEof_laHd (s : State) : (setEof s).laHd = s.laHd := rfl
@[simp] theorem setEof_eofSeen (s : State) : (setEof s).eofSeen = true := rfl
@[simp] theorem setEof_t (s : State) : (setEof s).t = s.t := rfl
@[simp] theorem setEof_n (s : State) : (setEof s).n = s.n := rfl
@[simp] theorem setEof_c (s : State) : (setEof s).c = s.c := rfl
@[simp] theorem setEof_tok (s : State) : (setEof s).tok = s.tok := rfl
@[simp] theorem setEof_ring (s : State) : (setEof s).ring = s.ring := rfl
@[simp] theorem setEof_cursor (s : State) : (setEof s).cursor = s.cursor := rfl
@[simp] theorem setEof_filled (s : State) : (setEof s).filled = s.filled := rfl
@[simp] theorem setEof_ctl (s : State) : (setEof s).ctl = s.ctl := rfl
@[simp] theorem setEof_slot (s : State) : (setEof s).slot = s.slot := rfl
@[simp] theorem setEof_mode (s : State) : (setEof s).mode = s.mode := rfl
@[simp] theorem setEof_runState (s : State) : (setEof s).runState = s.runState := rfl
@[simp] theorem setEof_errClass (s : State) : (setEof s).errClass = s.errClass := rfl
@[simp] theorem setEof_errno (s : State) : (setEof s).errno = s.errno := rfl
@[simp] theorem setEof_phase (s : State) : (setEof s).phase = s.phase := rfl
@[simp] theorem setEof_moves (s : State) : (setEof s).moves = s.moves := rfl
@[simp] theorem setEof_inTaken (s : State) : (setEof s).inTaken = s.inTaken := rfl
@[simp] theorem setEof_outTaken (s : State) : (setEof s).outTaken = s.outTaken := rfl
@[simp] theorem setEof_hostData (s : State) : (setEof s).hostData = s.hostData := rfl
@[simp] theorem setEof_result (s : State) : (setEof s).result = s.result := rfl
@[simp] theorem setEof_draws (s : State) : (setEof s).draws = s.draws := rfl

/-! ## initWindow -/

@[simp] theorem initWindow_bf (s : State) : (initWindow s).bf = s.bf := rfl
@[simp] theorem initWindow_dictTl (s : State) : (initWindow s).dictTl = 0 := rfl
@[simp] theorem initWindow_dictHd (s : State) : (initWindow s).dictHd = 0 := rfl
@[simp] theorem initWindow_laHd (s : State) : (initWindow s).laHd = 0 := rfl
@[simp] theorem initWindow_eofSeen (s : State) : (initWindow s).eofSeen = false := rfl
@[simp] theorem initWindow_t (s : State) : (initWindow s).t = s.t := rfl
@[simp] theorem initWindow_n (s : State) : (initWindow s).n = s.n := rfl
@[simp] theorem initWindow_c (s : State) : (initWindow s).c = s.c := rfl
@[simp] theorem initWindow_tok (s : State) : (initWindow s).tok = s.tok := rfl
@[simp] theorem initWindow_ring (s : State) : (initWindow s).ring = s.ring := rfl
@[simp] theorem initWindow_cursor (s : State) : (initWindow s).cursor = s.cursor := rfl
@[simp] theorem initWindow_filled (s : State) : (initWindow s).filled = s.filled := rfl
@[simp] theorem initWindow_ctl (s : State) : (initWindow s).ctl = s.ctl := rfl
@[simp] theorem initWindow_slot (s : State) : (initWindow s).slot = s.slot := rfl
@[simp] theorem initWindow_mode (s : State) : (initWindow s).mode = s.mode := rfl
@[simp] theorem initWindow_runState (s : State) : (initWindow s).runState = s.runState := rfl
@[simp] theorem initWindow_errClass (s : State) : (initWindow s).errClass = s.errClass := rfl
@[simp] theorem initWindow_errno (s : State) : (initWindow s).errno = s.errno := rfl
@[simp] theorem initWindow_phase (s : State) : (initWindow s).phase = s.phase := rfl
@[simp] theorem initWindow_moves (s : State) : (initWindow s).moves = s.moves := rfl
@[simp] theorem initWindow_inTaken (s : State) : (initWindow s).inTaken = s.inTaken := rfl
@[simp] theorem initWindow_outTaken (s : State) : (initWindow s).outTaken = s.outTaken := rfl
@[simp] theorem initWindow_hostData (s : State) : (initWindow s).hostData = s.hostData := rfl
@[simp] theorem initWindow_result (s : State) : (initWindow s).result = s.result := rfl
@[simp] theorem initWindow_draws (s : State) : (initWindow s).draws = s.draws := rfl

/-! ## startRun -/

@[simp] theorem startRun_bf (m : Engine) (s : State) : (startRun m s).bf = s.bf := rfl
@[simp] theorem startRun_dictTl (m : Engine) (s : State) : (startRun m s).dictTl = 0 := rfl
@[simp] theorem startRun_dictHd (m : Engine) (s : State) : (startRun m s).dictHd = 0 := rfl
@[simp] theorem startRun_laHd (m : Engine) (s : State) : (startRun m s).laHd = 0 := rfl
@[simp] theorem startRun_eofSeen (m : Engine) (s : State) : (startRun m s).eofSeen = false := rfl
@[simp] theorem startRun_t (m : Engine) (s : State) : (startRun m s).t = s.t := rfl
@[simp] theorem startRun_n (m : Engine) (s : State) : (startRun m s).n = 0 := rfl
@[simp] theorem startRun_c (m : Engine) (s : State) : (startRun m s).c = 0 := rfl
@[simp] theorem startRun_tok (m : Engine) (s : State) : (startRun m s).tok = s.tok := rfl
@[simp] theorem startRun_ring (m : Engine) (s : State) : (startRun m s).ring = s.ring := rfl
@[simp] theorem startRun_cursor (m : Engine) (s : State) : (startRun m s).cursor = 0 := rfl
@[simp] theorem startRun_filled (m : Engine) (s : State) : (startRun m s).filled = 0 := rfl
@[simp] theorem startRun_ctl (m : Engine) (s : State) : (startRun m s).ctl = 0 := rfl
@[simp] theorem startRun_slot (m : Engine) (s : State) : (startRun m s).slot = 8 := rfl
@[simp] theorem startRun_mode (m : Engine) (s : State) : (startRun m s).mode = m := rfl
@[simp] theorem startRun_runState (m : Engine) (s : State) : (startRun m s).runState = .busy := rfl
@[simp] theorem startRun_errClass (m : Engine) (s : State) : (startRun m s).errClass = none := rfl
@[simp] theorem startRun_errno (m : Engine) (s : State) : (startRun m s).errno = 0 := rfl
@[simp] theorem startRun_phase (m : Engine) (s : State) : (startRun m s).phase = s.phase := rfl
@[simp] theorem startRun_moves (m : Engine) (s : State) : (startRun m s).moves = s.moves := rfl
@[simp] theorem startRun_inTaken (m : Engine) (s : State) : (startRun m s).inTaken = [] := rfl
@[simp] theorem startRun_outTaken (m : Engine) (s : State) : (startRun m s).outTaken = [] := rfl
@[simp] theorem startRun_hostData (m : Engine) (s : State) : (startRun m s).hostData = s.hostData := rfl
@[simp] theorem startRun_result (m : Engine) (s : State) : (startRun m s).result = s.result := rfl
@[simp] theorem startRun_draws (m : Engine) (s : State) : (startRun m s).draws = s.draws := rfl

/-! ## endRun -/

@[simp] theorem endRun_bf (s : State) : (endRun s).bf = s.bf := rfl
@[simp] theorem endRun_dictTl (s : State) : (endRun s).dictTl = s.dictTl := rfl
@[simp] theorem endRun_dictHd (s : State) : (endRun s).dictHd = s.dictHd := rfl
@[simp] theorem endRun_laHd (s : State) : (endRun s).laHd = s.laHd := rfl
@[simp] theorem endRun_eofSeen (s : State) : (endRun s).eofSeen = s.eofSeen := rfl
@[simp] theorem endRun_t (s : State) : (endRun s).t = s.t := rfl
@[simp] theorem endRun_n (s : State) : (endRun s).n = s.n := rfl
@[simp] theorem endRun_c (s : State) : (endRun s).c = s.c := rfl
@[simp] theorem endRun_tok (s : State) : (endRun s).tok = s.tok := rfl
@[simp] theorem endRun_ring (s : State) : (endRun s).ring = s.ring := rfl
@[simp] theorem endRun_cursor (s : State) : (endRun s).cursor = s.cursor := rfl
@[simp] theorem endRun_filled (s : State) : (endRun s).filled = s.filled := rfl
@[simp] theorem endRun_ctl (s : State) : (endRun s).ctl = s.ctl := rfl
@[simp] theorem endRun_slot (s : State) : (endRun s).slot = s.slot := rfl
@[simp] theorem endRun_mode (s : State) : (endRun s).mode = s.mode := rfl
@[simp] theorem endRun_runState (s : State) : (endRun s).runState = .done := rfl
@[simp] theorem endRun_errClass (s : State) : (endRun s).errClass = s.errClass := rfl
@[simp] theorem endRun_errno (s : State) : (endRun s).errno = s.errno := rfl
@[simp] theorem endRun_phase (s : State) : (endRun s).phase = .done := rfl
@[simp] theorem endRun_moves (s : State) : (endRun s).moves = s.moves := rfl
@[simp] theorem endRun_inTaken (s : State) : (endRun s).inTaken = s.inTaken := rfl
@[simp] theorem endRun_outTaken (s : State) : (endRun s).outTaken = s.outTaken := rfl
@[simp] theorem endRun_hostData (s : State) : (endRun s).hostData = s.hostData := rfl
@[simp] theorem endRun_result (s : State) : (endRun s).result = s.result := rfl
@[simp] theorem endRun_draws (s : State) : (endRun s).draws = s.draws := rfl

/-! ## storeInput -/

@[simp] theorem storeInput_bf (b : Byte) (s : State) : (storeInput b s).bf = s.bf.write (mask s.laHd) b := rfl
@[simp] theorem storeInput_dictTl (b : Byte) (s : State) : (storeInput b s).dictTl = s.dictTl := rfl
@[simp] theorem storeInput_dictHd (b : Byte) (s : State) : (storeInput b s).dictHd = s.dictHd := rfl
@[simp] theorem storeInput_laHd (b : Byte) (s : State) : (storeInput b s).laHd = s.laHd + 1 := rfl
@[simp] theorem storeInput_eofSeen (b : Byte) (s : State) : (storeInput b s).eofSeen = s.eofSeen := rfl
@[simp] theorem storeInput_t (b : Byte) (s : State) : (storeInput b s).t = s.t := rfl
@[simp] theorem storeInput_n (b : Byte) (s : State) : (storeInput b s).n = s.n := rfl
@[simp] theorem storeInput_c (b : Byte) (s : State) : (storeInput b s).c = s.c := rfl
@[simp] theorem storeInput_tok (b : Byte) (s : State) : (storeInput b s).tok = s.tok := rfl
@[simp] theorem storeInput_ring (b : Byte) (s : State) : (storeInput b s).ring = s.ring := rfl
@[simp] theorem storeInput_cursor (b : Byte) (s : State) : (storeInput b s).cursor = s.cursor := rfl
@[simp] theorem storeInput_filled (b : Byte) (s : State) : (storeInput b s).filled = s.filled := rfl
@[simp] theorem storeInput_ctl (b : Byte) (s : State) : (storeInput b s).ctl = s.ctl := rfl
@[simp] theorem storeInput_slot (b : Byte) (s : State) : (storeInput b s).slot = s.slot := rfl
@[simp] theorem storeInput_mode (b : Byte) (s : State) : (storeInput b s).mode = s.mode := rfl
@[simp] theorem storeInput_runState (b : Byte) (s : State) : (storeInput b s).runState = s.runState := rfl
@[simp] theorem storeInput_errClass (b : Byte) (s : State) : (storeInput b s).errClass = s.errClass := rfl
@[simp] theorem storeInput_errno (b : Byte) (s : State) : (storeInput b s).errno = s.errno := rfl
@[simp] theorem storeInput_phase (b : Byte) (s : State) : (storeInput b s).phase = s.phase := rfl
@[simp] theorem storeInput_moves (b : Byte) (s : State) : (storeInput b s).moves = s.moves := rfl
@[simp] theorem storeInput_inTaken (b : Byte) (s : State) : (storeInput b s).inTaken = s.inTaken := rfl
@[simp] theorem storeInput_outTaken (b : Byte) (s : State) : (storeInput b s).outTaken = s.outTaken := rfl
@[simp] theorem storeInput_hostData (b : Byte) (s : State) : (storeInput b s).hostData = s.hostData := rfl
@[simp] theorem storeInput_result (b : Byte) (s : State) : (storeInput b s).result = s.result := rfl
@[simp] theorem storeInput_draws (b : Byte) (s : State) : (storeInput b s).draws = s.draws := rfl

/-! ## openGroup -/

@[simp] theorem openGroup_bf (s : State) : (openGroup s).bf = s.bf := rfl
@[simp] theorem openGroup_dictTl (s : State) : (openGroup s).dictTl = s.dictTl := rfl
@[simp] theorem openGroup_dictHd (s : State) : (openGroup s).dictHd = s.dictHd := rfl
@[simp] theorem openGroup_laHd (s : State) : (openGroup s).laHd = s.laHd := rfl
@[simp] theorem openGroup_eofSeen (s : State) : (openGroup s).eofSeen = s.eofSeen := rfl
@[simp] theorem openGroup_t (s : State) : (openGroup s).t = s.t := rfl
@[simp] theorem openGroup_n (s : State) : (openGroup s).n = 0 := rfl
@[simp] theorem openGroup_c (s : State) : (openGroup s).c = 0 := rfl
@[simp] theorem openGroup_tok (s : State) : (openGroup s).tok = s.tok := rfl
@[simp] theorem openGroup_ring (s : State) : (openGroup s).ring = s.ring := rfl
@[simp] theorem openGroup_cursor (s : State) : (openGroup s).cursor = s.cursor := rfl
@[simp] theorem openGroup_filled (s : State) : (openGroup s).filled = s.filled := rfl
@[simp] theorem openGroup_ctl (s : State) : (openGroup s).ctl = s.ctl := rfl
@[simp] theorem openGroup_slot (s : State) : (openGroup s).slot = s.slot := rfl
@[simp] theorem openGroup_mode (s : State) : (openGroup s).mode = s.mode := rfl
@[simp] theorem openGroup_runState (s : State) : (openGroup s).runState = s.runState := rfl
@[simp] theorem openGroup_errClass (s : State) : (openGroup s).errClass = s.errClass := rfl
@[simp] theorem openGroup_errno (s : State) : (openGroup s).errno = s.errno := rfl
@[simp] theorem openGroup_phase (s : State) : (openGroup s).phase = s.phase := rfl
@[simp] theorem openGroup_moves (s : State) : (openGroup s).moves = s.moves := rfl
@[simp] theorem openGroup_inTaken (s : State) : (openGroup s).inTaken = s.inTaken := rfl
@[simp] theorem openGroup_outTaken (s : State) : (openGroup s).outTaken = s.outTaken := rfl
@[simp] theorem openGroup_hostData (s : State) : (openGroup s).hostData = s.hostData := rfl
@[simp] theorem openGroup_result (s : State) : (openGroup s).result = s.result := rfl
@[simp] theorem openGroup_draws (s : State) : (openGroup s).draws = s.draws := rfl

/-! ## storeTok -/

@[simp] theorem storeTok_bf (tk : TokReg) (s : State) : (storeTok tk s).bf = s.bf := rfl
@[simp] theorem storeTok_dictTl (tk : TokReg) (s : State) : (storeTok tk s).dictTl = s.dictTl := rfl
@[simp] theorem storeTok_dictHd (tk : TokReg) (s : State) : (storeTok tk s).dictHd = s.dictHd := rfl
@[simp] theorem storeTok_laHd (tk : TokReg) (s : State) : (storeTok tk s).laHd = s.laHd := rfl
@[simp] theorem storeTok_eofSeen (tk : TokReg) (s : State) : (storeTok tk s).eofSeen = s.eofSeen := rfl
@[simp] theorem storeTok_t (tk : TokReg) (s : State) : (storeTok tk s).t = s.t := rfl
@[simp] theorem storeTok_n (tk : TokReg) (s : State) : (storeTok tk s).n = Fin.ofNat 9 (s.n.val + 1) := rfl
@[simp] theorem storeTok_c (tk : TokReg) (s : State) : (storeTok tk s).c = if tk.kind then setKindBit s.c s.n.val else s.c := rfl
@[simp] theorem storeTok_tok (tk : TokReg) (s : State) : (storeTok tk s).tok = s.tok.setIfInBounds s.n.val tk := rfl
@[simp] theorem storeTok_ring (tk : TokReg) (s : State) : (storeTok tk s).ring = s.ring := rfl
@[simp] theorem storeTok_cursor (tk : TokReg) (s : State) : (storeTok tk s).cursor = s.cursor := rfl
@[simp] theorem storeTok_filled (tk : TokReg) (s : State) : (storeTok tk s).filled = s.filled := rfl
@[simp] theorem storeTok_ctl (tk : TokReg) (s : State) : (storeTok tk s).ctl = s.ctl := rfl
@[simp] theorem storeTok_slot (tk : TokReg) (s : State) : (storeTok tk s).slot = s.slot := rfl
@[simp] theorem storeTok_mode (tk : TokReg) (s : State) : (storeTok tk s).mode = s.mode := rfl
@[simp] theorem storeTok_runState (tk : TokReg) (s : State) : (storeTok tk s).runState = s.runState := rfl
@[simp] theorem storeTok_errClass (tk : TokReg) (s : State) : (storeTok tk s).errClass = s.errClass := rfl
@[simp] theorem storeTok_errno (tk : TokReg) (s : State) : (storeTok tk s).errno = s.errno := rfl
@[simp] theorem storeTok_phase (tk : TokReg) (s : State) : (storeTok tk s).phase = s.phase := rfl
@[simp] theorem storeTok_moves (tk : TokReg) (s : State) : (storeTok tk s).moves = s.moves := rfl
@[simp] theorem storeTok_inTaken (tk : TokReg) (s : State) : (storeTok tk s).inTaken = s.inTaken := rfl
@[simp] theorem storeTok_outTaken (tk : TokReg) (s : State) : (storeTok tk s).outTaken = s.outTaken := rfl
@[simp] theorem storeTok_hostData (tk : TokReg) (s : State) : (storeTok tk s).hostData = s.hostData := rfl
@[simp] theorem storeTok_result (tk : TokReg) (s : State) : (storeTok tk s).result = s.result := rfl
@[simp] theorem storeTok_draws (tk : TokReg) (s : State) : (storeTok tk s).draws = s.draws := rfl

/-! ## storeOutput -/

@[simp] theorem storeOutput_bf (b : Byte) (s : State) : (storeOutput b s).bf = s.bf := rfl
@[simp] theorem storeOutput_dictTl (b : Byte) (s : State) : (storeOutput b s).dictTl = s.dictTl := rfl
@[simp] theorem storeOutput_dictHd (b : Byte) (s : State) : (storeOutput b s).dictHd = s.dictHd := rfl
@[simp] theorem storeOutput_laHd (b : Byte) (s : State) : (storeOutput b s).laHd = s.laHd := rfl
@[simp] theorem storeOutput_eofSeen (b : Byte) (s : State) : (storeOutput b s).eofSeen = s.eofSeen := rfl
@[simp] theorem storeOutput_t (b : Byte) (s : State) : (storeOutput b s).t = s.t := rfl
@[simp] theorem storeOutput_n (b : Byte) (s : State) : (storeOutput b s).n = s.n := rfl
@[simp] theorem storeOutput_c (b : Byte) (s : State) : (storeOutput b s).c = s.c := rfl
@[simp] theorem storeOutput_tok (b : Byte) (s : State) : (storeOutput b s).tok = s.tok := rfl
@[simp] theorem storeOutput_ring (b : Byte) (s : State) : (storeOutput b s).ring = s.ring.write s.cursor.toNat b := rfl
@[simp] theorem storeOutput_cursor (b : Byte) (s : State) : (storeOutput b s).cursor = s.cursor + 1 := rfl
@[simp] theorem storeOutput_filled (b : Byte) (s : State) : (storeOutput b s).filled = fillCount s.filled := rfl
@[simp] theorem storeOutput_ctl (b : Byte) (s : State) : (storeOutput b s).ctl = s.ctl := rfl
@[simp] theorem storeOutput_slot (b : Byte) (s : State) : (storeOutput b s).slot = s.slot := rfl
@[simp] theorem storeOutput_mode (b : Byte) (s : State) : (storeOutput b s).mode = s.mode := rfl
@[simp] theorem storeOutput_runState (b : Byte) (s : State) : (storeOutput b s).runState = s.runState := rfl
@[simp] theorem storeOutput_errClass (b : Byte) (s : State) : (storeOutput b s).errClass = s.errClass := rfl
@[simp] theorem storeOutput_errno (b : Byte) (s : State) : (storeOutput b s).errno = s.errno := rfl
@[simp] theorem storeOutput_phase (b : Byte) (s : State) : (storeOutput b s).phase = s.phase := rfl
@[simp] theorem storeOutput_moves (b : Byte) (s : State) : (storeOutput b s).moves = s.moves := rfl
@[simp] theorem storeOutput_inTaken (b : Byte) (s : State) : (storeOutput b s).inTaken = s.inTaken := rfl
@[simp] theorem storeOutput_outTaken (b : Byte) (s : State) : (storeOutput b s).outTaken = s.outTaken := rfl
@[simp] theorem storeOutput_hostData (b : Byte) (s : State) : (storeOutput b s).hostData = s.hostData := rfl
@[simp] theorem storeOutput_result (b : Byte) (s : State) : (storeOutput b s).result = s.result := rfl
@[simp] theorem storeOutput_draws (b : Byte) (s : State) : (storeOutput b s).draws = s.draws := rfl

/-! ## openCtl -/

@[simp] theorem openCtl_bf (x : Byte) (s : State) : (openCtl x s).bf = s.bf := rfl
@[simp] theorem openCtl_dictTl (x : Byte) (s : State) : (openCtl x s).dictTl = s.dictTl := rfl
@[simp] theorem openCtl_dictHd (x : Byte) (s : State) : (openCtl x s).dictHd = s.dictHd := rfl
@[simp] theorem openCtl_laHd (x : Byte) (s : State) : (openCtl x s).laHd = s.laHd := rfl
@[simp] theorem openCtl_eofSeen (x : Byte) (s : State) : (openCtl x s).eofSeen = s.eofSeen := rfl
@[simp] theorem openCtl_t (x : Byte) (s : State) : (openCtl x s).t = s.t := rfl
@[simp] theorem openCtl_n (x : Byte) (s : State) : (openCtl x s).n = s.n := rfl
@[simp] theorem openCtl_c (x : Byte) (s : State) : (openCtl x s).c = s.c := rfl
@[simp] theorem openCtl_tok (x : Byte) (s : State) : (openCtl x s).tok = s.tok := rfl
@[simp] theorem openCtl_ring (x : Byte) (s : State) : (openCtl x s).ring = s.ring := rfl
@[simp] theorem openCtl_cursor (x : Byte) (s : State) : (openCtl x s).cursor = s.cursor := rfl
@[simp] theorem openCtl_filled (x : Byte) (s : State) : (openCtl x s).filled = s.filled := rfl
@[simp] theorem openCtl_ctl (x : Byte) (s : State) : (openCtl x s).ctl = x := rfl
@[simp] theorem openCtl_slot (x : Byte) (s : State) : (openCtl x s).slot = 0 := rfl
@[simp] theorem openCtl_mode (x : Byte) (s : State) : (openCtl x s).mode = s.mode := rfl
@[simp] theorem openCtl_runState (x : Byte) (s : State) : (openCtl x s).runState = s.runState := rfl
@[simp] theorem openCtl_errClass (x : Byte) (s : State) : (openCtl x s).errClass = s.errClass := rfl
@[simp] theorem openCtl_errno (x : Byte) (s : State) : (openCtl x s).errno = s.errno := rfl
@[simp] theorem openCtl_phase (x : Byte) (s : State) : (openCtl x s).phase = s.phase := rfl
@[simp] theorem openCtl_moves (x : Byte) (s : State) : (openCtl x s).moves = s.moves := rfl
@[simp] theorem openCtl_inTaken (x : Byte) (s : State) : (openCtl x s).inTaken = s.inTaken := rfl
@[simp] theorem openCtl_outTaken (x : Byte) (s : State) : (openCtl x s).outTaken = s.outTaken := rfl
@[simp] theorem openCtl_hostData (x : Byte) (s : State) : (openCtl x s).hostData = s.hostData := rfl
@[simp] theorem openCtl_result (x : Byte) (s : State) : (openCtl x s).result = s.result := rfl
@[simp] theorem openCtl_draws (x : Byte) (s : State) : (openCtl x s).draws = s.draws := rfl

/-! ## endToken -/

@[simp] theorem endToken_bf (s : State) : (endToken s).bf = s.bf := rfl
@[simp] theorem endToken_dictTl (s : State) : (endToken s).dictTl = s.dictTl := rfl
@[simp] theorem endToken_dictHd (s : State) : (endToken s).dictHd = s.dictHd := rfl
@[simp] theorem endToken_laHd (s : State) : (endToken s).laHd = s.laHd := rfl
@[simp] theorem endToken_eofSeen (s : State) : (endToken s).eofSeen = s.eofSeen := rfl
@[simp] theorem endToken_t (s : State) : (endToken s).t = s.t := rfl
@[simp] theorem endToken_n (s : State) : (endToken s).n = s.n := rfl
@[simp] theorem endToken_c (s : State) : (endToken s).c = s.c := rfl
@[simp] theorem endToken_tok (s : State) : (endToken s).tok = s.tok := rfl
@[simp] theorem endToken_ring (s : State) : (endToken s).ring = s.ring := rfl
@[simp] theorem endToken_cursor (s : State) : (endToken s).cursor = s.cursor := rfl
@[simp] theorem endToken_filled (s : State) : (endToken s).filled = s.filled := rfl
@[simp] theorem endToken_ctl (s : State) : (endToken s).ctl = s.ctl := rfl
@[simp] theorem endToken_slot (s : State) : (endToken s).slot = nextSlot s.slot := rfl
@[simp] theorem endToken_mode (s : State) : (endToken s).mode = s.mode := rfl
@[simp] theorem endToken_runState (s : State) : (endToken s).runState = s.runState := rfl
@[simp] theorem endToken_errClass (s : State) : (endToken s).errClass = s.errClass := rfl
@[simp] theorem endToken_errno (s : State) : (endToken s).errno = s.errno := rfl
@[simp] theorem endToken_phase (s : State) : (endToken s).phase = .dToken := rfl
@[simp] theorem endToken_moves (s : State) : (endToken s).moves = s.moves := rfl
@[simp] theorem endToken_inTaken (s : State) : (endToken s).inTaken = s.inTaken := rfl
@[simp] theorem endToken_outTaken (s : State) : (endToken s).outTaken = s.outTaken := rfl
@[simp] theorem endToken_hostData (s : State) : (endToken s).hostData = s.hostData := rfl
@[simp] theorem endToken_result (s : State) : (endToken s).result = s.result := rfl
@[simp] theorem endToken_draws (s : State) : (endToken s).draws = s.draws := rfl

/-! ## pushMove -/

@[simp] theorem pushMove_bf (m : Move) (s : State) : (pushMove m s).bf = s.bf := rfl
@[simp] theorem pushMove_dictTl (m : Move) (s : State) : (pushMove m s).dictTl = s.dictTl := rfl
@[simp] theorem pushMove_dictHd (m : Move) (s : State) : (pushMove m s).dictHd = s.dictHd := rfl
@[simp] theorem pushMove_laHd (m : Move) (s : State) : (pushMove m s).laHd = s.laHd := rfl
@[simp] theorem pushMove_eofSeen (m : Move) (s : State) : (pushMove m s).eofSeen = s.eofSeen := rfl
@[simp] theorem pushMove_t (m : Move) (s : State) : (pushMove m s).t = s.t := rfl
@[simp] theorem pushMove_n (m : Move) (s : State) : (pushMove m s).n = s.n := rfl
@[simp] theorem pushMove_c (m : Move) (s : State) : (pushMove m s).c = s.c := rfl
@[simp] theorem pushMove_tok (m : Move) (s : State) : (pushMove m s).tok = s.tok := rfl
@[simp] theorem pushMove_ring (m : Move) (s : State) : (pushMove m s).ring = s.ring := rfl
@[simp] theorem pushMove_cursor (m : Move) (s : State) : (pushMove m s).cursor = s.cursor := rfl
@[simp] theorem pushMove_filled (m : Move) (s : State) : (pushMove m s).filled = s.filled := rfl
@[simp] theorem pushMove_ctl (m : Move) (s : State) : (pushMove m s).ctl = s.ctl := rfl
@[simp] theorem pushMove_slot (m : Move) (s : State) : (pushMove m s).slot = s.slot := rfl
@[simp] theorem pushMove_mode (m : Move) (s : State) : (pushMove m s).mode = s.mode := rfl
@[simp] theorem pushMove_runState (m : Move) (s : State) : (pushMove m s).runState = s.runState := rfl
@[simp] theorem pushMove_errClass (m : Move) (s : State) : (pushMove m s).errClass = s.errClass := rfl
@[simp] theorem pushMove_errno (m : Move) (s : State) : (pushMove m s).errno = s.errno := rfl
@[simp] theorem pushMove_phase (m : Move) (s : State) : (pushMove m s).phase = s.phase := rfl
@[simp] theorem pushMove_moves (m : Move) (s : State) : (pushMove m s).moves = m :: s.moves := rfl
@[simp] theorem pushMove_inTaken (m : Move) (s : State) : (pushMove m s).inTaken = s.inTaken := rfl
@[simp] theorem pushMove_outTaken (m : Move) (s : State) : (pushMove m s).outTaken = s.outTaken := rfl
@[simp] theorem pushMove_hostData (m : Move) (s : State) : (pushMove m s).hostData = s.hostData := rfl
@[simp] theorem pushMove_result (m : Move) (s : State) : (pushMove m s).result = s.result := rfl
@[simp] theorem pushMove_draws (m : Move) (s : State) : (pushMove m s).draws = s.draws := rfl

/-! ## raiseError -/

@[simp] theorem raiseError_bf (err : RunError) (e : Errno) (s : State) : (raiseError err e s).bf = [] := rfl
@[simp] theorem raiseError_t (err : RunError) (e : Errno) (s : State) : (raiseError err e s).t = [] := rfl
@[simp] theorem raiseError_ring (err : RunError) (e : Errno) (s : State) : (raiseError err e s).ring = [] := rfl
@[simp] theorem raiseError_mode (err : RunError) (e : Errno) (s : State) : (raiseError err e s).mode = s.mode := rfl
@[simp] theorem raiseError_runState (err : RunError) (e : Errno) (s : State) : (raiseError err e s).runState = .error := rfl
@[simp] theorem raiseError_errClass (err : RunError) (e : Errno) (s : State) : (raiseError err e s).errClass = some err := rfl
@[simp] theorem raiseError_errno (err : RunError) (e : Errno) (s : State) : (raiseError err e s).errno = recordedErrno err e := rfl
@[simp] theorem raiseError_phase (err : RunError) (e : Errno) (s : State) : (raiseError err e s).phase = .error := rfl
@[simp] theorem raiseError_moves (err : RunError) (e : Errno) (s : State) : (raiseError err e s).moves = s.moves := rfl
@[simp] theorem raiseError_inTaken (err : RunError) (e : Errno) (s : State) : (raiseError err e s).inTaken = s.inTaken := rfl
@[simp] theorem raiseError_outTaken (err : RunError) (e : Errno) (s : State) : (raiseError err e s).outTaken = s.outTaken := rfl
@[simp] theorem raiseError_hostData (err : RunError) (e : Errno) (s : State) : (raiseError err e s).hostData = s.hostData := rfl
@[simp] theorem raiseError_result (err : RunError) (e : Errno) (s : State) : (raiseError err e s).result = s.result := rfl

/-! ## hardReset -/

@[simp] theorem hardReset_bf (s : State) : (hardReset s).bf = [] := rfl
@[simp] theorem hardReset_dictTl (s : State) : (hardReset s).dictTl = 0 := rfl
@[simp] theorem hardReset_dictHd (s : State) : (hardReset s).dictHd = 0 := rfl
@[simp] theorem hardReset_laHd (s : State) : (hardReset s).laHd = 0 := rfl
@[simp] theorem hardReset_eofSeen (s : State) : (hardReset s).eofSeen = false := rfl
@[simp] theorem hardReset_t (s : State) : (hardReset s).t = [] := rfl
@[simp] theorem hardReset_n (s : State) : (hardReset s).n = 0 := rfl
@[simp] theorem hardReset_c (s : State) : (hardReset s).c = 0 := rfl
@[simp] theorem hardReset_tok (s : State) : (hardReset s).tok = Vector.replicate 8 ⟨false, 0, 0⟩ := rfl
@[simp] theorem hardReset_ring (s : State) : (hardReset s).ring = [] := rfl
@[simp] theorem hardReset_cursor (s : State) : (hardReset s).cursor = 0 := rfl
@[simp] theorem hardReset_filled (s : State) : (hardReset s).filled = 0 := rfl
@[simp] theorem hardReset_ctl (s : State) : (hardReset s).ctl = 0 := rfl
@[simp] theorem hardReset_slot (s : State) : (hardReset s).slot = 8 := rfl
@[simp] theorem hardReset_mode (s : State) : (hardReset s).mode = .compress := rfl
@[simp] theorem hardReset_runState (s : State) : (hardReset s).runState = .idle := rfl
@[simp] theorem hardReset_errClass (s : State) : (hardReset s).errClass = none := rfl
@[simp] theorem hardReset_errno (s : State) : (hardReset s).errno = 0 := rfl
@[simp] theorem hardReset_phase (s : State) : (hardReset s).phase = .idle := rfl
@[simp] theorem hardReset_moves (s : State) : (hardReset s).moves = s.moves := rfl
@[simp] theorem hardReset_inTaken (s : State) : (hardReset s).inTaken = s.inTaken := rfl
@[simp] theorem hardReset_outTaken (s : State) : (hardReset s).outTaken = s.outTaken := rfl
@[simp] theorem hardReset_hostData (s : State) : (hardReset s).hostData = s.hostData := rfl
@[simp] theorem hardReset_result (s : State) : (hardReset s).result = .none := rfl
@[simp] theorem hardReset_draws (s : State) : (hardReset s).draws = s.draws := rfl

end Sys2Proof.Machine
end

