-- ==== Sys2Proof/Laws/Ops.lean ====
section
/-! SUPPORT. What each shared operation can do, said once: the later proofs cite these and unfold nothing. -/

namespace Sys2Proof.Machine

/-! ## How an operation ends -/

@[simp] theorem Ran.andThen_returned {α β : Type} (a : α) (s : State) (k : α → State → Ran β) :
    (Ran.returned a s).andThen k = k a s := rfl
@[simp] theorem Ran.andThen_stops {α β : Type} (s : State) (k : α → State → Ran β) :
    (Ran.stops s : Ran α).andThen k = .stops s := rfl
@[simp] theorem Ran.andThen_fault {α β : Type} (f : Fault) (k : α → State → Ran β) :
    (Ran.fault f : Ran α).andThen k = .fault f := rfl
@[simp] theorem Ran.ofExcept_ok {α β : Type} (a : α) (k : α → Ran β) : Ran.ofExcept (.ok a) k = k a := rfl
@[simp] theorem Ran.ofExcept_error {α β : Type} (f : Fault) (k : α → Ran β) :
    Ran.ofExcept (.error f) k = .fault f := rfl
@[simp] theorem Ran.outcome_returned {α : Type} (a : α) (s : State) (keep : α → State → State) :
    (Ran.returned a s).outcome keep = .next (keep a s) := rfl
@[simp] theorem Ran.outcome_stops {α : Type} (s : State) (keep : α → State → State) :
    (Ran.stops s : Ran α).outcome keep = .next s := rfl
@[simp] theorem Ran.outcome_fault {α : Type} (f : Fault) (keep : α → State → State) :
    (Ran.fault f : Ran α).outcome keep = .fault f := rfl
@[simp] theorem keepNone_eq (u : Unit) (s : State) : keepNone u s = s := rfl

@[simp] theorem written_some (b : Byte) : written (some b) = .ok b := rfl
@[simp] theorem written_none : written none = .error .readUnwritten := rfl

/-- A read that goes on read a written cell. -/
theorem written_eq_ok {v : Option Byte} {b : Byte} : written v = .ok b ↔ v = some b := by
  cases v <;> simp [written]

/-- An operation that does not fault answers a next state. -/
theorem Ran.outcome_eq_next {α : Type} {r : Ran α} {keep : α → State → State} {t : State} :
    r.outcome keep = .next t ↔ (∃ a s, r = .returned a s ∧ keep a s = t) ∨ r = .stops t := by
  cases r <;> simp [Ran.outcome]

/-! ## The window -/

/-- Fill's three ways to go (R131). -/
theorem fill_cases (s : State) :
    (256 ≤ s.laSize ∧ fill s = .returned .ok s) ∨
    (s.laSize < 256 ∧ s.eofSeen = true ∧ fill s = .returned .eof s) ∨
    (s.laSize < 256 ∧ s.eofSeen = false ∧ fill s = .stops (setPhase .cRead s)) := by
  unfold fill
  cases h : s.eofSeen <;> by_cases hl : s.laSize < 256 <;> simp_all

/-- Shift runs exactly on its precondition, and only moves two cursors (R134). -/
theorem shiftWindow_eq_ok {n : Nat} {s t : State} :
    shiftWindow n s = .ok t ↔ (1 ≤ n ∧ n ≤ s.laSize) ∧
      t = { s with
        dictHd := s.dictHd + BitVec.ofNat 64 n
        dictTl := if n > s.dictCapacity then s.dictTl + BitVec.ofNat 64 (n - s.dictCapacity) else s.dictTl } := by
  unfold shiftWindow
  split <;> simp_all [eq_comm]

/-- After a Shift the lookahead is `n` bytes shorter (R135). -/
theorem shiftWindow_laSize {n : Nat} {s t : State} (h : shiftWindow n s = .ok t) :
    t.laSize = s.laSize - n := by
  obtain ⟨⟨h1, h2⟩, rfl⟩ := shiftWindow_eq_ok.mp h
  simp only [State.laSize, ringSize, State.laTl] at h2 ⊢
  simp only [BitVec.toNat_sub, BitVec.toNat_add, BitVec.toNat_ofNat] at h2 ⊢
  omega

/-- A byte stored by Fill makes the lookahead one longer, while it is not full (R131). -/
theorem storeInput_laSize {s : State} (b : Byte) (h : s.laSize < 256) :
    (storeInput b s).laSize = s.laSize + 1 := by
  have h1 : (1 : Cursor).toNat = 1 := rfl
  simp only [State.laSize, ringSize, State.laTl, storeInput] at h ⊢
  simp only [BitVec.toNat_sub, BitVec.toNat_add, h1] at h ⊢
  omega

/-! ## The framer -/

theorem emit_eq (b : Byte) (site : EmitSite) (s : State) : emit b site s = .stops (setPhase (waitPoint b site) s) :=
  rfl

/-- Flush offers the control byte, of a group with a token (R213). -/
theorem flush_eq {site : FlushSite} {s : State} (h : s.n.val ≠ 0) :
    flush site s = .stops (setPhase (.cWrite s.c 0 site) s) := by
  simp [flush, h, emit_eq, waitPoint]

/-- Accept's ways to go (R210, R211): it stores, in a new group or in the one open, or it waits behind a Flush. -/
theorem accept_cases (tok : TokReg) (s : State) :
    (s.n.val = 0 ∧ accept tok s = .returned () (storeTok tok (openGroup s))) ∨
    (s.n.val = 8 ∧ accept tok s = .stops (setPhase (.cWrite s.c 0 (.accept tok)) s)) ∨
    (1 ≤ s.n.val ∧ s.n.val < 8 ∧ accept tok s = .returned () (storeTok tok s)) := by
  have h9 := s.n.isLt
  unfold accept
  by_cases h0 : s.n.val = 0
  · simp [h0]
  · by_cases h8 : s.n.val = 8
    · right; left
      simp [h8, flush_eq h0]
    · right; right
      simp [h0, h8]
      omega

/-- Finish's two ways to go (R214). -/
theorem finish_cases (s : State) :
    (s.n.val = 0 ∧ finish s = .returned () s) ∨
    (1 ≤ s.n.val ∧ finish s = .stops (setPhase (.cWrite s.c 0 .finish) s)) := by
  unfold finish
  by_cases h0 : s.n.val = 0
  · simp [h0]
  · right
    have : 0 < s.n.val := by omega
    simp [this, flush_eq h0]
    omega

/-- The control byte of one more token (R212). -/
theorem controlByteFrom_append (c : Byte) (k : Nat) (ts : List TokReg) (t : TokReg) :
    controlByteFrom c k (ts ++ [t]) =
      if t.kind then setKindBit (controlByteFrom c k ts) (k + ts.length) else controlByteFrom c k ts := by
  induction ts generalizing c k with
  | nil => simp [controlByteFrom]
  | cons u ts ih =>
    simp only [List.cons_append, controlByteFrom, ih, List.length_cons]
    rw [show k + 1 + ts.length = k + (ts.length + 1) by omega]

/-- `TOK[0..n)` has `n` tokens. -/
theorem groupToks_length (s : State) : s.groupToks.length = min s.n.val 8 := by
  simp [State.groupToks]

/-- Storing a token with room for it makes it the last of `TOK[0..n)` (R210). -/
theorem groupToks_storeTok (tok : TokReg) (s : State) (h : s.n.val < 8) :
    (storeTok tok s).groupToks = s.groupToks ++ [tok] := by
  have hn : (Fin.ofNat 9 (s.n.val + 1)).val = s.n.val + 1 := by
    simp [Fin.ofNat]; omega
  simp only [State.groupToks, storeTok_tok, storeTok_n, hn]
  simp [List.take_add_one, Vector.toList, h, List.take_set_of_le]

/-- A group just opened holds no token. -/
theorem groupToks_openGroup (s : State) : (openGroup s).groupToks = [] := by
  simp [State.groupToks]

/-- `c` stays the control byte of the group when a token is stored (R212). -/
theorem storeTok_control (tok : TokReg) (s : State) (h : s.n.val < 8) (hc : s.c = controlByte s.groupToks) :
    (storeTok tok s).c = controlByte (storeTok tok s).groupToks := by
  have hl : s.groupToks.length = s.n.val := by rw [groupToks_length]; omega
  rw [groupToks_storeTok tok s h, controlByte, controlByteFrom_append, hl, storeTok_c, hc, controlByte, Nat.zero_add]

/-! ## The deframer -/

/-- `nextSlot` counts up inside a group (R240). -/
theorem nextSlot_val {sl : Fin 9} (h : sl.val < 8) : (nextSlot sl).val = sl.val + 1 := by
  simp only [nextSlot, Fin.ofNat]; omega

theorem fillCount_val (f : Fin 257) : (fillCount f).val = min (f.val + 1) 256 := by
  simp only [fillCount, Fin.ofNat]; omega

/-- Copy's three ways to go (R245, R246): BAD_REFERENCE, the first byte offered, or a cell never written. -/
theorem copy_cases (off lm1 : Byte) (s : State) :
    (s.filled.val < off.toNat + 1 ∧
      copy off lm1 s = .stops (raiseError .badReference Config.genericIoError s)) ∨
    (off.toNat + 1 ≤ s.filled.val ∧ ∃ b, s.ring.read (s.cursor - off - 1).toNat = some b ∧
      copy off lm1 s = .stops (setPhase (.dWrite b (.copy (s.cursor - off - 1) lm1.toNat)) s)) ∨
    (off.toNat + 1 ≤ s.filled.val ∧ s.ring.read (s.cursor - off - 1).toNat = none ∧
      copy off lm1 s = .fault .readUnwritten) := by
  unfold copy copyStep
  by_cases h : s.filled.val < off.toNat + 1
  · simp [h]
  · right
    have h' : ¬ (off.toNat + 1 > s.filled.val) := h
    cases hr : s.ring.read (s.cursor - off - 1).toNat with
    | none =>
      right
      rw [if_neg h', written_none]
      exact ⟨by omega, rfl, rfl⟩
    | some b =>
      left
      rw [if_neg h', written_some]
      exact ⟨by omega, b, rfl, rfl⟩

/-- Put's return ends the token or takes the next copy step (R240, R245). -/
@[simp] theorem putReturn_literal (s : State) : putReturn .literal s = .stops (endToken s) := rfl
@[simp] theorem putReturn_last (src : Byte) (s : State) : putReturn (.copy src 0) s = .stops (endToken s) := rfl
@[simp] theorem putReturn_more (src : Byte) (left : Nat) (s : State) :
    putReturn (.copy src (left + 1)) s = copyStep (src + 1) left s := rfl

/-! ## The step -/

/-- With no move pending the machine waits (log 2). -/
theorem step_of_no_move {s : State} (h : s.moves = []) : step s = .next s := by
  simp [step, runPending, h]

/-- With a move pending the step is that move's. -/
theorem step_of_move {s : State} {m : Move} {rest : List Move} (h : s.moves = m :: rest) :
    step s = runMove s m rest := by
  simp [step, runPending, h]

/-- What one step can be, by what its move makes the controller do. -/
theorem step_cases (s : State) :
    (s.moves = [] ∧ step s = .next s) ∨
    ∃ m rest, s.moves = m :: rest ∧
      ((∃ i, fetch s m = .instr i ∧ step s = exec i (recordMove s m rest)) ∨
       (∃ r, fetch s m = .resume r ∧ step s = resume r (recordMove s m rest)) ∨
       (fetch s m = .ignored ∧ step s = .next (recordMove s m rest)) ∨
       (∃ r, fetch s m = .refused r ∧ step s = .refused r)) := by
  cases hm : s.moves with
  | nil => exact .inl ⟨rfl, step_of_no_move hm⟩
  | cons m rest =>
    refine .inr ⟨m, rest, rfl, ?_⟩
    rw [step_of_move hm]
    unfold runMove
    cases hf : fetch s m <;> simp

/-- A move changes the two streams' records and the list of moves, and nothing else (log 1, log 19). -/
theorem recordMove_eq (s : State) (m : Move) (rest : List Move) :
    recordMove s m rest = { s with
      moves := rest
      inTaken := (recordMove s m rest).inTaken
      outTaken := (recordMove s m rest).outTaken } := by
  unfold recordMove
  split <;> rfl

/-! ## The recorded number -/

/-- The parameter is not 0 (R306; log 8). -/
theorem genericIoError_ne_zero : Config.genericIoError ≠ 0 := by
  have h := Config.genericIoCode.isLt
  intro h0
  have h1 := congrArg BitVec.toNat h0
  simp only [Config.genericIoError, BitVec.toNat_ofNat] at h1
  have h2 : (0 : Errno).toNat = 0 := rfl
  omega

@[simp] theorem recordedErrno_readError (e : Errno) :
    recordedErrno .readError e = if e = 0 then Config.genericIoError else e := rfl
@[simp] theorem recordedErrno_writeError (e : Errno) :
    recordedErrno .writeError e = if e = 0 then Config.genericIoError else e := rfl
@[simp] theorem recordedErrno_truncated (e : Errno) : recordedErrno .truncated e = Config.genericIoError := rfl
@[simp] theorem recordedErrno_badReference (e : Errno) :
    recordedErrno .badReference e = Config.genericIoError := rfl

/-- R306: the number an abort records is never 0. -/
theorem recordedErrno_ne_zero (err : RunError) (e : Errno) : recordedErrno err e ≠ 0 := by
  have h := genericIoError_ne_zero
  cases err <;> simp only [recordedErrno_readError, recordedErrno_writeError, recordedErrno_truncated,
    recordedErrno_badReference] <;> first | exact h | (split <;> assumption)

end Sys2Proof.Machine
end

