-- ==== Sys2Proof/Laws/PerInstr.lean ====
section
/-! SUPPORT. For every instruction: where its encoding stands, the decoder reads it back (spec/30_encoding.md R82
to R94). One lemma per constructor. -/

namespace Sys2Proof.Laws.DecodeEncode

/-- Wherever the instruction stands in the stream, decoding its encoding gives it back. -/
def Statement (i : Instr) : Prop := ∀ p, i.standsAt p = true → decode p (encode i) = .ok i

theorem ctrlByte (k : Byte) : Statement (.ctrlByte k) := by
  intro p h
  simp_all [Instr.standsAt, encode, decode, decodeWire]

theorem lit (v : Byte) : Statement (.lit v) := by
  intro p h
  simp_all [Instr.standsAt, encode, decode, decodeWire]

theorem bref (off lm1 : Byte) : Statement (.bref off lm1) := by
  intro p h
  simp_all [Instr.standsAt, encode, decode, decodeWire]

/-- The three fields of a CTRL write word read back (R91). -/
theorem ctrlWriteWord_start (r : BitVec 30) (m st : BitVec 1) : (ctrlWriteWord r m st).extractLsb' 0 1 = st := by
  ext k hk
  obtain rfl : k = 0 := by omega
  simp [ctrlWriteWord]

theorem ctrlWriteWord_mode (r : BitVec 30) (m st : BitVec 1) : (ctrlWriteWord r m st).extractLsb' 1 1 = m := by
  ext k hk
  obtain rfl : k = 0 := by omega
  simp [ctrlWriteWord]

theorem ctrlWriteWord_reserved (r : BitVec 30) (m st : BitVec 1) :
    (ctrlWriteWord r m st).extractLsb' 2 30 = r := by
  ext k hk
  have hs : st.getLsbD (2 + k) = false := BitVec.getLsbD_of_ge st _ (by omega)
  have hk' : 2 + k < 32 := by omega
  have hk1 : ¬ (2 + k ≤ 1) := by omega
  simp [ctrlWriteWord, hs, hk', hk1, BitVec.getLsbD_eq_getElem hk]

theorem cmdCompress (r : BitVec 30) : Statement (.cmdCompress r) := by
  intro p _
  simp [encode, decode, decodeHost, ctrlWrite, decodeCtrlWrite, ctrlWriteWord_start, ctrlWriteWord_mode,
    ctrlWriteWord_reserved]

theorem cmdDecompress (r : BitVec 30) : Statement (.cmdDecompress r) := by
  intro p _
  simp [encode, decode, decodeHost, ctrlWrite, decodeCtrlWrite, ctrlWriteWord_start, ctrlWriteWord_mode,
    ctrlWriteWord_reserved]

theorem cmdSetMode (r : BitVec 30) (m : BitVec 1) : Statement (.cmdSetMode r m) := by
  intro p _
  simp [encode, decode, decodeHost, ctrlWrite, decodeCtrlWrite, ctrlWriteWord_start, ctrlWriteWord_mode,
    ctrlWriteWord_reserved]

theorem rdCtrl : Statement .rdCtrl := by
  intro p _
  rfl

theorem rdStatus : Statement .rdStatus := by
  intro p _
  rfl

/-! The internal operations have no encoding, and stand nowhere in the stream. -/

theorem winInit : Statement .winInit := by intro p h; simp [Instr.standsAt] at h
theorem fill : Statement .fill := by intro p h; simp [Instr.standsAt] at h
theorem shift (n : Nat) : Statement (.shift n) := by intro p h; simp [Instr.standsAt] at h
theorem buildTable : Statement .buildTable := by intro p h; simp [Instr.standsAt] at h
theorem search : Statement .search := by intro p h; simp [Instr.standsAt] at h
theorem policy (o : Cursor) (len : Nat) : Statement (.policy o len) := by intro p h; simp [Instr.standsAt] at h
theorem accept (tok : TokReg) : Statement (.accept tok) := by intro p h; simp [Instr.standsAt] at h
theorem flush (site : FlushSite) : Statement (.flush site) := by intro p h; simp [Instr.standsAt] at h
theorem finish : Statement .finish := by intro p h; simp [Instr.standsAt] at h
theorem emit (b : Byte) (site : EmitSite) : Statement (.emit b site) := by intro p h; simp [Instr.standsAt] at h
theorem compressRun : Statement .compressRun := by intro p h; simp [Instr.standsAt] at h
theorem decRun : Statement .decRun := by intro p h; simp [Instr.standsAt] at h
theorem put (b : Byte) (site : PutSite) : Statement (.put b site) := by intro p h; simp [Instr.standsAt] at h
theorem copy (off lm1 : Byte) : Statement (.copy off lm1) := by intro p h; simp [Instr.standsAt] at h
theorem needByte (site : NeedSite) : Statement (.needByte site) := by intro p h; simp [Instr.standsAt] at h
theorem decompressRun : Statement .decompressRun := by intro p h; simp [Instr.standsAt] at h
theorem abort (err : RunError) (e : Errno) : Statement (.abort err e) := by intro p h; simp [Instr.standsAt] at h
theorem reset (inflight : Inflight) : Statement (.reset inflight) := by intro p h; simp [Instr.standsAt] at h

end Sys2Proof.Laws.DecodeEncode
end

