-- ==== Sys2Proof/Tests/Slice0.lean ====
section
/-! SUPPORT. Tests of the model against spec/95_test_vectors.md (each test's comment names its vector), the smoke
test of WellFormed, and for every statement with hypotheses a state that meets them. -/

namespace Sys2Proof.Tests

open Machine

/-! ## Helpers -/

/-- A value of the next state. -/
def after {α : Type} (o : Outcome) (f : State → α) : Option α :=
  match o with
  | .next s => some (f s)
  | .fault _ => none
  | .refused _ => none

/-- The cells 0, 1, … with these bytes. -/
def cells (bs : List Byte) : Memory := (List.range bs.length).zip bs

/-- A compress run whose window holds `d` and then `la`, from cursor 0, with a table. -/
def windowState (d la : List Byte) (t : List Byte) : State :=
  { State.reset with
    bf := cells (d ++ la)
    dictHd := BitVec.ofNat 64 d.length
    laHd := BitVec.ofNat 64 (d.length + la.length)
    t := cells t
    runState := .busy
    phase := .cRead }

/-- A decompress run that has output `out`, at a slot under a control byte. -/
def streamState (out : List Byte) (sl : Fin 9) (ctl : Byte) (p : Phase) (ms : List Move) : State :=
  { State.reset with
    ring := cells out
    cursor := BitVec.ofNat 8 out.length
    filled := Fin.ofNat 257 out.length
    slot := sl
    ctl := ctl
    mode := .decompress
    runState := .busy
    phase := p
    outTaken := out
    moves := ms }

/-- The state after reset with moves pending. -/
def pending (ms : List Move) : State := { State.reset with moves := ms }

def writeCtrl (w : Word) : Move := .host ⟨0, 4, .write w⟩

/-! ## WellFormed refuses an ill-formed term for each check -/

theorem test_shift_of_nothing_refused : (Instr.shift 0).wf = false := by decide
theorem test_shift_past_window_refused : (Instr.shift 257).wf = false := by decide
theorem test_policy_length_refused : (Instr.policy 0 257).wf = false := by decide
theorem test_policy_offset_refused : (Instr.policy 257 2).wf = false := by decide
theorem test_emit_index_refused : (Instr.emit 0 (.flush 17 .finish)).wf = false := by decide
theorem test_emit_copy_refused : (Instr.emit 0 (.put (.copy 0 256))).wf = false := by decide
theorem test_put_copy_refused : (Instr.put 0 (.copy 0 256)).wf = false := by decide
theorem test_abort_truncated_number_refused : (Instr.abort .truncated 0).wf = false :=
  decide_eq_false genericIoError_ne_zero.symm
theorem test_abort_reference_number_refused : (Instr.abort .badReference 0).wf = false :=
  decide_eq_false genericIoError_ne_zero.symm
theorem test_abort_well_formed : (Instr.abort .truncated Config.genericIoError).wf = true := decide_eq_true rfl

/-! ## Decoding: words written out from spec/30_encoding.md -/

/-- R82, R88: the first byte of a stream is a control byte. -/
theorem test_decode_ctrlByte : decode ⟨8, 0#8⟩ (.wire [0b01100000#8]) = .ok (.ctrlByte 0x60) := by decide
/-- R82, R84: slot 1 of `10111111` is a literal. -/
theorem test_decode_lit : decode ⟨1, 0b10111111#8⟩ (.wire [0b01000001#8]) = .ok (.lit 0x41) := by decide
/-- R85: offset first, then length (program P2's `01 05`). -/
theorem test_decode_bref : decode ⟨2, 0b00100000#8⟩ (.wire [0b00000001#8, 0b00000101#8]) = .ok (.bref 1 5) := by
  decide
/-- R88: a back-reference with one byte is not whole. -/
theorem test_decode_half_bref : decode ⟨0, 0x80#8⟩ (.wire [0x01#8]) = .error (.needLength 1) := by decide
/-- R91. -/
theorem test_decode_cmdCompress :
    decodeHost ⟨0, 4, .write 0b00000000000000000000000000000001#32⟩ = .ok (.cmdCompress 0) := by decide
/-- R91. -/
theorem test_decode_cmdDecompress :
    decodeHost ⟨0, 4, .write 0b00000000000000000000000000000011#32⟩ = .ok (.cmdDecompress 0) := by decide
/-- R91. -/
theorem test_decode_cmdSetMode :
    decodeHost ⟨0, 4, .write 0b10000000000000000000000000000010#32⟩ = .ok (.cmdSetMode 0x20000000 1) := by decide
/-- R94. -/
theorem test_decode_reads : decodeHost ⟨0, 4, .read⟩ = .ok .rdCtrl ∧ decodeHost ⟨4, 4, .read⟩ = .ok .rdStatus := by
  decide
/-- V-H6, V-H8. -/
theorem test_decode_refused :
    decodeHost ⟨4, 1, .read⟩ = .error .notAWord ∧ decodeHost ⟨8, 4, .read⟩ = .error .noSuchRegister := by decide
/-- R94: an internal operation has no encoding. -/
theorem test_decode_unencoded : decode ⟨8, 0⟩ (encode .search) = .error .unencoded := by decide
/-- V-E8's stream, whole. -/
theorem test_decode_stream : decodeStream [0x20, 0x41, 0x42, 0x01, 0x01] =
    .ok [.ctrlByte 0x20, .lit 0x41, .lit 0x42, .bref 1 1] := by decide
/-- R81, V-X3: a stream that ends straight after a control byte. -/
theorem test_decode_stream_truncated : decodeStream [0x00] = .error .needFirstByte := by decide
/-- V-E1, V-E2, V-E4: control bytes of groups. -/
theorem test_control_bytes :
    controlByte (refForm 0 1 :: litsForm [1, 2, 3, 4, 5, 6, 7]) = 0x80 ∧
    controlByte (litsForm [1, 2, 3, 4, 5, 6, 7] ++ [refForm 0 1]) = 0x01 ∧
    controlByte [litForm 1, refForm 0 1, copyForm 1 2] = 0x60 := by decide
/-- R95: the line of program P1. -/
theorem test_group_line : (GroupLine.wf ⟨0x20, [litForm 0x41, litForm 0x42, copyForm 2 6]⟩) = true ∧
    groupBytes [litForm 0x41, litForm 0x42, copyForm 2 6] = [0x20, 0x41, 0x42, 0x01, 0x05] := by decide

/-- The rows' words where the step fetches: 8, 16 and 32 bits. -/
theorem test_row_words :
    decodeTableWord 8 0x60 = some (.ctrlByte 0x60) ∧ decodeTableWord 16 0x0501 = some (.bref 1 5) ∧
    decodeTableWord 32 3 = some (.cmdDecompress 0) := by decide
theorem test_row_word_runs :
    after (step (State.reset.withFetchWord 8 0x60)) (fun t => (t.ctl, t.slot, t.phase)) =
      some (0x60, 0, .dNeed .firstByte) := by decide
/-- A back-reference as the very first token is BAD_REFERENCE (V-X1's token). -/
theorem test_row_word_runs_bref :
    after (step (State.reset.withFetchWord 16 0x0000)) (fun t => (t.errClass, t.runState)) =
      some (some .badReference, .error) := by decide

/-! ## Host registers -/

/-- V-H1. -/
theorem test_rdCtrl : after (step (pending [.host ⟨0, 4, .read⟩])) (·.hostData) = some (some 0x00000000#32) := by
  decide
/-- V-X9's STATUS word. -/
theorem test_rdStatus :
    after (exec .rdStatus { State.reset with runState := .error, errClass := some .writeError, errno := 28 })
      (·.hostData) = some (some 0x001C0023#32) := by decide
/-- 30 R92: "0x00050033 is ERROR, class TRUNCATED, `ERRNO = 5`"; V-X2 and V-X8's words for the number 5. -/
theorem test_status_word :
    statusWord 5 (some .truncated) .error = 0x00050033#32 ∧
    statusWord 5 (some .badReference) .error = 0x00050043#32 ∧
    statusWord 5 (some .writeError) .error = 0x00050023#32 := by decide
/-- V-H2. -/
theorem test_cmdSetMode :
    after (step (pending [writeCtrl 2#32])) (fun t => (ctrlReadWord t.mode, t.runState)) =
      some (0x00000002#32, .idle) := by decide
/-- V-H5. -/
theorem test_cmdCompress :
    after (step (pending [writeCtrl 0xFFFFFFFD#32])) (fun t => (t.mode, t.runState, t.phase)) =
      some (.compress, .busy, .cRead) := by decide
/-- V-H3. -/
theorem test_cmdDecompress :
    after (step (pending [writeCtrl 3#32])) (fun t => (statusWord t.errno t.errClass t.runState, t.slot)) =
      some (0x00000001#32, 8) := by decide
/-- V-H4. -/
theorem test_cmd_while_busy :
    after (step (streamState [] 8 0 .dToken [writeCtrl 1#32])) (fun t => (ctrlReadWord t.mode, t.phase)) =
      some (0x00000002#32, .dToken) := by decide

/-! ## Ring arithmetic and the window -/

/-- V-R1 to V-R5. -/
theorem test_ring_helpers :
    ringSize 300 556 = 256 ∧ ringCapacity 300 556 = 0 ∧ mask 1000 = 488 ∧ ringRun 500 = 12 ∧ ringRun 512 = 512 ∧
    ringSize (BitVec.ofNat 64 (2 ^ 64 - 3)) 2 = 5 := by decide
theorem test_winInit :
    after (exec .winInit { State.reset with dictTl := 3, dictHd := 9, laHd := 11, eofSeen := true })
      (fun t => (t.dictTl, t.dictHd, t.laHd, t.eofSeen)) = some (0, 0, 0, false) := by decide
/-- V-W5. -/
theorem test_fill_after_end :
    after (exec .fill { windowState [] [1, 2, 3, 4] [] with eofSeen := true }) (·.result) =
      some (.fill .eof) := by decide
/-- V-W1, its second byte. -/
theorem test_fill_byte :
    after (step { windowState [] [0x41] [] with moves := [.input (.byte 0x42)] })
      (fun t => (t.bf, t.laHd, t.phase)) = some ([(0, 0x41), (1, 0x42)], 2, .cRead) := by decide
/-- V-W3. -/
theorem test_shift_full :
    after (exec (.shift 256) { State.reset with dictHd := 256, laHd := 512 }) (fun t => (t.dictTl, t.dictHd)) =
      some (256, 512) := by decide
/-- V-W4. -/
theorem test_shift_overflow :
    after (exec (.shift 3) { State.reset with dictHd := 255, laHd := 300 }) (fun t => (t.dictTl, t.dictHd)) =
      some (2, 258) := by decide

/-! ## Table, search, policy -/

/-- V-K1, "ABABAC". -/
theorem test_buildTable :
    after (exec .buildTable (windowState [] [0x41, 0x42, 0x41, 0x42, 0x41, 0x43] [])) (·.t) =
      some (cells [0, 0, 1, 2, 3, 0]) := by decide
/-- V-K3, "AABAAAB". -/
theorem test_buildTable_fallback :
    after (exec .buildTable (windowState [0x43] [0x41, 0x41, 0x42, 0x41, 0x41, 0x41, 0x42] [])) (·.t) =
      some (cells [0, 1, 0, 1, 2, 2, 3]) := by decide
/-- V-S5, "AABA" and "AAA". -/
theorem test_search_late_full_match :
    after (exec .search (windowState [0x41, 0x41, 0x42, 0x41] [0x41, 0x41, 0x41] [0, 1, 2])) (·.result) =
      some (.search 3 3) := by decide
/-- V-S8, "ABAB" and "ABAC": of two partial matches of 3 the first is kept. -/
theorem test_search_oldest_partial :
    after (exec .search (windowState [0x41, 0x42, 0x41, 0x42] [0x41, 0x42, 0x41, 0x43] [0, 0, 1, 0])) (·.result) =
      some (.search 0 3) := by decide
/-- V-P4, "QRSABT" and "ABAS" with (3, 2): a literal through `dict.tl + 2`. -/
theorem test_policy_heuristic :
    after (exec (.policy 3 2) (windowState [0x51, 0x52, 0x53, 0x41, 0x42, 0x54] [0x41, 0x42, 0x41, 0x53] []))
      (fun t => (match t.result with | .policy k => some (k.kind, k.a) | _ => none, t.dictHd)) =
      some (some (false, 0x41), 7) := by decide
/-- V-P2, "AAB" and "AAA" with (0, 2): three bytes left, so the reference is taken. -/
theorem test_policy_reference :
    after (exec (.policy 0 2) (windowState [0x41, 0x41, 0x42] [0x41, 0x41, 0x41] []))
      (fun t => (t.result, t.dictHd)) = some (.policy ⟨true, 0x02, 0x01⟩, 5) := by decide

/-! ## Framer -/

/-- V-E12: LIT 41, then REF 00 08. -/
theorem test_accept_reference :
    after (exec (.accept (refForm 0x00 0x08)) { State.reset with n := 1 })
      (fun t => (t.n, t.c, t.tok[1], t.phase)) = some (2, 0x40, refForm 0x00 0x08, .idle) := by decide
/-- 45 R210: the ninth token finds a full group. -/
theorem test_accept_full :
    after (exec (.accept (litForm 0x49)) { State.reset with n := 8, c := 0x81 }) (·.phase) =
      some (.cWrite 0x81 0 (.accept (litForm 0x49))) := by decide
/-- 45 R213's example: the bytes of `c = 0x40` and `TOK = [LIT 41, REF 00 08]`. -/
theorem test_flush_bytes :
    State.flushBytes { State.reset with
      n := 2, c := 0x40, tok := (State.reset.tok.setIfInBounds 0 (litForm 0x41)).setIfInBounds 1 (refForm 0 8) } =
      [0x40, 0x41, 0x00, 0x08] := by decide
theorem test_flush :
    after (exec (.flush .finish) { State.reset with n := 1, c := 0x40 }) (·.phase) =
      some (.cWrite 0x40 0 .finish) := by decide
/-- 45 R214: with no token Finish does nothing (S-1). -/
theorem test_finish_empty : after (exec .finish State.reset) (·.phase) = some .idle := by decide
/-- V-X8: the output channel answers `Err(0)` to the first byte. -/
theorem test_emit_error :
    after (step { windowState [0x41] [] [] with
      n := 1, phase := .cWrite 0x00 0 .finish, moves := [.output (.err 0)] })
      (fun t => (t.errno, t.errClass, t.runState, t.outTaken)) =
      some (Config.genericIoError, some .writeError, .error, []) := by rfl
theorem test_emit : after (exec (.emit 0x41 (.put .literal)) State.reset) (·.phase) =
    some (.dWrite 0x41 .literal) := by decide
/-- S-1: compress of the empty input. -/
theorem test_compress_empty :
    after (step { windowState [] [] [] with moves := [.input .endOfInput] })
      (fun t => (t.runState, t.phase, t.outTaken, t.eofSeen)) = some (.done, .done, [], true) := by decide
/-- S-2: after `41` and `End` the group's control byte 00 is offered, with one literal 41 in it. -/
theorem test_compress_one_byte :
    after (step { windowState [] [0x41] [] with moves := [.input .endOfInput] })
      (fun t => (t.phase, t.n, t.tok[0].kind, t.tok[0].a)) = some (.cWrite 0x00 0 .finish, 1, false, 0x41) := by
  decide
theorem test_compressRun : after (exec .compressRun State.reset) (·.phase) = some .cRead := by decide

/-! ## Deframer -/

theorem test_ctrlByte :
    after (exec (.ctrlByte 0x40) (streamState [] 8 0 .dToken [])) (fun t => (t.ctl, t.slot, t.phase)) =
      some (0x40, 0, .dNeed .firstByte) := by decide
/-- V-D1: the literal 41 is offered. -/
theorem test_lit :
    after (step (streamState [] 0 0 (.dNeed .firstByte) [.input (.byte 0x41)])) (·.phase) =
      some (.dWrite 0x41 .literal) := by decide
/-- V-D1: it is accepted. -/
theorem test_literal_accepted :
    after (step (streamState [] 0 0 (.dWrite 0x41 .literal) [.output .ok]))
      (fun t => (t.ring, t.cursor, t.filled, t.slot, t.phase)) = some ([(0, 0x41)], 1, 1, 1, .dToken) := by decide
/-- Program P2, step 4: `01 05` after `41 42` reads from `src = 0`. -/
theorem test_bref :
    after (step (streamState [0x41, 0x42] 2 0x20 (.dNeed (.lengthByte 0x01)) [.input (.byte 0x05)])) (·.phase) =
      some (.dWrite 0x41 (.copy 0 5)) := by decide
/-- V-X2: `d = 2 > filled = 1`. -/
theorem test_bref_bad :
    after (step (streamState [0x41] 1 0x40 (.dNeed (.lengthByte 0x01)) [.input (.byte 0x00)]))
      (fun t => (t.errno, t.errClass, t.runState, t.outTaken)) =
      some (Config.genericIoError, some .badReference, .error, [0x41]) := by rfl
/-- 46 R245: the copy's next step reads the byte this step wrote. -/
theorem test_copy_overlap :
    after (step (streamState [0x41] 1 0x40 (.dWrite 0x41 (.copy 0 3)) [.output .ok]))
      (fun t => (t.phase, t.cursor)) = some (.dWrite 0x41 (.copy 1 2), 2) := by decide
theorem test_copy :
    after (exec (.copy 0x00 0x08) (streamState [0x41] 1 0x40 .dToken [])) (·.phase) =
      some (.dWrite 0x41 (.copy 0 8)) := by decide
theorem test_put : after (exec (.put 0x41 (.copy 7 2)) State.reset) (·.phase) =
    some (.dWrite 0x41 (.copy 7 2)) := by decide
/-- V-X4: `End` inside a back-reference. -/
theorem test_truncated :
    after (step (streamState [0x41] 1 0x40 (.dNeed (.lengthByte 0x00)) [.input .endOfInput]))
      (fun t => (t.errno, t.errClass, t.runState)) = some (Config.genericIoError, some .truncated, .error) := by rfl
/-- V-X5: `ERR 7` at a token start. -/
theorem test_read_error :
    after (step (streamState [0x41] 1 0x00 .dToken [.input (.err 7)]))
      (fun t => (statusWord t.errno t.errClass t.runState, t.outTaken)) = some (0x00070013#32, [0x41]) := by decide
/-- V-D2: the end of a group cut short is clean. -/
theorem test_clean_end :
    after (step (streamState [0x41, 0x42] 2 0x00 .dToken [.input .endOfInput])) (·.runState) = some .done := by decide
theorem test_needByte : after (exec (.needByte .firstByte) State.reset) (·.phase) = some (.dNeed .firstByte) := by
  decide
/-- 46 R248: NeedByte returns the length byte to its call site, Copy, even at a group boundary. -/
theorem test_needByte_returns_to_its_site :
    after (step (streamState [0x41] 8 0x00 (.dNeed (.lengthByte 0x00)) [.input (.byte 0x03)])) (·.phase) =
      some (.dWrite 0x41 (.copy 0 3)) := by decide
theorem test_decRun : after (exec .decRun State.reset) (·.phase) = some .dToken := by decide
theorem test_decompressRun : after (exec .decompressRun State.reset) (·.phase) = some .dToken := by decide
/-- 60 R306: `Err(0)` is recorded as GENERIC_IO_ERROR. -/
theorem test_abort :
    after (exec (.abort .readError 0) (streamState [] 8 0 .dToken []))
      (fun t => (t.errno, t.errClass, t.runState)) = some (Config.genericIoError, some .readError, .error) := by rfl
/-- 70 R341: a reset in a run records no error and loses the byte offered, unless the platform delivered it. -/
theorem test_reset :
    after (exec (.reset ⟨none, true⟩) (streamState [0x41] 1 0 (.dWrite 0x42 .literal) []))
      (fun t => (statusWord t.errno t.errClass t.runState, t.slot, t.outTaken)) =
      some (0x00000000#32, 8, [0x41, 0x42]) := by decide

end Sys2Proof.Tests
end

