-- ==== Sys2Proof/Tests/Witness.lean ====
section
/-! SUPPORT. For every statement with hypotheses, a state and operands that meet all of them together, each clause at
a boundary of its range. `witness_<statement>` names the statement it is for. -/

namespace Sys2Proof.Tests

open Machine

/-! ## States that meet the invariant -/

/-- What the world still has to say is no part of the invariant. -/
theorem inv_withMoves {s : State} (h : Inv s) (ms : List Move) : Inv { s with moves := ms } where
  memories := ⟨h.memories.1, h.memories.2, h.memories.3, h.memories.4, h.memories.5, h.memories.6⟩
  status := ⟨h.status.1, h.status.2, h.status.3, h.status.4, h.status.5⟩
  compress e :=
    have c := h.compress e
    ⟨⟨c.window.1, c.window.2⟩, c.live, c.control, c.reading, c.writing⟩
  decompress e :=
    have d := h.decompress e
    ⟨d.ring, d.needing, d.writing⟩

theorem ring_withMoves {s : State} (h : RingHoldsOutput s) (ms : List Move) :
    RingHoldsOutput { s with moves := ms } := ⟨h.1, h.2⟩

/-- A compress run just started. -/
def started : State := windowState [] [] []

def startedC (ms : List Move) : State := { started with moves := ms }

theorem inv_started : Inv started where
  memories := ⟨by decide, by decide, by decide, by decide, by decide, by decide⟩
  status := ⟨by decide, by rintro e ⟨⟩; rfl, by decide, by decide, by decide⟩
  compress _ :=
    { window := ⟨by decide, by decide⟩
      live := show ∀ q, q < started.dictSize + started.laSize → _ from by decide
      control := by decide
      reading := by decide
      writing := by rintro b k site ⟨⟩ }
  decompress := by rintro ⟨⟩

theorem inv_startedC (ms : List Move) : Inv (startedC ms) := inv_withMoves inv_started ms

/-- A compress run of `41` that has seen `End` and offers its last group's control byte. -/
def offering : State :=
  { State.reset with
    bf := [(0, 0x41)], dictHd := 1, laHd := 1, eofSeen := true, n := 1,
    tok := State.reset.tok.setIfInBounds 0 (litForm 0x41),
    runState := .busy, phase := .cWrite 0x00 0 .finish }

def offeringC (ms : List Move) : State := { offering with moves := ms }

theorem inv_offering : Inv offering where
  memories := ⟨by decide, by decide, by decide, by decide, by decide, by decide⟩
  status := ⟨by decide, by rintro e ⟨⟩; rfl, by decide, by decide, by decide⟩
  compress _ :=
    { window := ⟨by decide, by decide⟩
      live := show ∀ q, q < offering.dictSize + offering.laSize → _ from by decide
      control := by decide
      reading := by rintro ⟨⟩
      writing := by
        rintro b k site ⟨⟩
        exact ⟨by decide, by decide, .inr ⟨rfl, by decide, rfl⟩⟩ }
  decompress := by rintro ⟨⟩

theorem inv_offeringC (ms : List Move) : Inv (offeringC ms) := inv_withMoves inv_offering ms

/-- The same run with its last byte offered. -/
def offeringEnd : State := { offering with phase := .cWrite 0x41 1 .finish, outTaken := [0x00] }

def offeringLast (ms : List Move) : State := { offeringEnd with moves := ms }

theorem inv_offeringEnd : Inv offeringEnd where
  memories := ⟨by decide, by decide, by decide, by decide, by decide, by decide⟩
  status := ⟨by decide, by rintro e ⟨⟩; rfl, by decide, by decide, by decide⟩
  compress _ :=
    { window := ⟨by decide, by decide⟩
      live := show ∀ q, q < offeringEnd.dictSize + offeringEnd.laSize → _ from by decide
      control := by decide
      reading := by rintro ⟨⟩
      writing := by
        rintro b k site ⟨⟩
        exact ⟨by decide, by decide, .inr ⟨rfl, by decide, rfl⟩⟩ }
  decompress := by rintro ⟨⟩

theorem inv_offeringLast (ms : List Move) : Inv (offeringLast ms) := inv_withMoves inv_offeringEnd ms

/-- `n` written cells from `lo` on. -/
def writtenFrom (lo : Nat) : Nat → Memory
  | 0 => []
  | n + 1 => (lo, 0x41) :: writtenFrom (lo + 1) n

theorem read_writtenFrom (n lo a : Nat) (h : lo ≤ a) (h' : a < lo + n) :
    (writtenFrom lo n).read a = some 0x41 := by
  induction n generalizing lo with
  | zero => omega
  | succ n ih =>
    rw [writtenFrom, Memory.read_cons]
    split
    · rfl
    · exact ih (lo + 1) (by omega) (by omega)

theorem rising_writtenFrom (n lo : Nat) : (writtenFrom lo n).rising lo = true := by
  induction n generalizing lo with
  | zero => rfl
  | succ n ih => simp [writtenFrom, Memory.rising, ih]

theorem within_writtenFrom (n lo size : Nat) (h : lo + n ≤ size) : (writtenFrom lo n).within size = true := by
  induction n generalizing lo with
  | zero => rfl
  | succ n ih =>
    have hl : lo < size := by omega
    have hr := ih (lo + 1) (by omega)
    simp only [Memory.within] at hr
    simp only [writtenFrom, Memory.within, List.all_cons, hl, hr, decide_true, Bool.and_self]

theorem wf_writtenFrom (n : Nat) : (writtenFrom 0 n).wf = true := rising_writtenFrom n 0

/-- A compress run whose lookahead lacks one byte. -/
def nearly : State := { started with bf := writtenFrom 0 255, laHd := 255 }

def nearlyFull (ms : List Move) : State := { nearly with moves := ms }

theorem live_nearly : LiveWritten nearly := by
  intro q h
  have hq : q < 255 := h
  have hm : mask (nearly.dictTl + BitVec.ofNat 64 q) = q := by
    have h0 : nearly.dictTl = 0 := rfl
    have h1 : (0 : Cursor).toNat = 0 := rfl
    rw [mask_eq, h0, BitVec.toNat_add, BitVec.toNat_ofNat, h1]
    omega
  rw [State.textByte, State.bfAt, hm]
  exact congrArg Option.isSome (read_writtenFrom 255 0 q (by omega) (by omega))

theorem inv_nearly : Inv nearly where
  memories := ⟨wf_writtenFrom 255, within_writtenFrom 255 0 512 (by omega), by decide, by decide, by decide, by decide⟩
  status := ⟨by decide, by rintro e ⟨⟩; rfl, by decide, by decide, by decide⟩
  compress _ :=
    { window := ⟨by decide, by decide⟩
      live := live_nearly
      control := by decide
      reading := fun _ => ⟨by decide, rfl⟩
      writing := by rintro b k site ⟨⟩ }
  decompress := by rintro ⟨⟩

theorem inv_nearlyFull (ms : List Move) : Inv (nearlyFull ms) := inv_withMoves inv_nearly ms

/-- A decompress run that has output `41` and waits on the length byte of a reference of distance 2. -/
def needing : State := streamState [0x41] 1 0x40 (.dNeed (.lengthByte 0x01)) []

def needingD (ms : List Move) : State := { needing with moves := ms }

theorem inv_needing : Inv needing where
  memories := ⟨by decide, by decide, by decide, by decide, by decide, by decide⟩
  status := ⟨by decide, by rintro e ⟨⟩; rfl, by decide, by decide, by decide⟩
  compress := by rintro ⟨⟩
  decompress _ :=
    { ring := show ∀ k, k < needing.filled.val → _ from by decide
      needing := by
        rintro site ⟨⟩
        exact .inr ⟨0x01, rfl, by decide, by decide⟩
      writing := by rintro b site ⟨⟩ }

theorem inv_needingD (ms : List Move) : Inv (needingD ms) := inv_withMoves inv_needing ms

/-- A decompress run that has output `41 42` and waits at slot 2 of the group `20`. -/
def waiting : State := streamState [0x41, 0x42] 2 0x20 .dToken []

def tokenD (ms : List Move) : State := { waiting with moves := ms }

/-- The same run inside a copy of distance 2 with three steps left. -/
def copying : State := streamState [0x41, 0x42] 2 0x20 (.dWrite 0x41 (.copy 0 3)) []

def copyingD (ms : List Move) : State := { copying with moves := ms }

theorem ring_waiting : RingHoldsOutput waiting :=
  ⟨by decide, show ∀ k, k < waiting.filled.val → _ from by decide⟩

theorem ring_copying : RingHoldsOutput copying :=
  ⟨by decide, show ∀ k, k < copying.filled.val → _ from by decide⟩

theorem inv_waiting : Inv waiting where
  memories := ⟨by decide, by decide, by decide, by decide, by decide, by decide⟩
  status := ⟨by decide, by rintro e ⟨⟩; rfl, by decide, by decide, by decide⟩
  compress := by rintro ⟨⟩
  decompress _ :=
    { ring := show ∀ k, k < waiting.filled.val → _ from by decide
      needing := by rintro site ⟨⟩
      writing := by rintro b site ⟨⟩ }

theorem inv_tokenD (ms : List Move) : Inv (tokenD ms) := inv_withMoves inv_waiting ms

theorem inv_copying : Inv copying where
  memories := ⟨by decide, by decide, by decide, by decide, by decide, by decide⟩
  status := ⟨by decide, by rintro e ⟨⟩; rfl, by decide, by decide, by decide⟩
  compress := by rintro ⟨⟩
  decompress _ :=
    { ring := show ∀ k, k < copying.filled.val → _ from by decide
      needing := by rintro site ⟨⟩
      writing := by
        rintro b site ⟨⟩
        exact ⟨by decide, .inr ⟨0, 3, 2, rfl, by decide, by decide, by decide, by decide⟩⟩ }

theorem inv_copyingD (ms : List Move) : Inv (copyingD ms) := inv_withMoves inv_copying ms

/-- A machine whose last run is DONE. -/
def rested : State := { State.reset with runState := .done, phase := .done }

def restedWith (ms : List Move) : State := { rested with moves := ms }

theorem inv_rested : Inv rested where
  memories := ⟨by decide, by decide, by decide, by decide, by decide, by decide⟩
  status := ⟨by decide, by rintro e ⟨⟩, by decide, by decide, by decide⟩
  compress := by rintro ⟨⟩
  decompress := by rintro ⟨⟩

theorem inv_restedWith (ms : List Move) : Inv (restedWith ms) := inv_withMoves inv_rested ms

/-! ## The encoding and the step -/

theorem witness_TokenKStandsInItsSlot : (litsForm [1, 2, 3, 4, 5, 6, 7, 8, 9])[8]? = some (litForm 9) := by decide

theorem witness_StepRunsTheDecodedInstruction :
    (let s := streamState [0x41, 0x42] 8 0 .dToken [.input (.byte 7)]
     s.moves = .input (.byte 7) :: [] ∧ s.phase = .dToken ∧
      decodeWire ⟨s.slot, s.ctl⟩ (s.phase.heldBytes ++ [7]) = .ok (.ctrlByte 7, [])) ∧
    (let s := streamState [0x41, 0x42] 2 0x20 (.dNeed (.lengthByte 1)) [.input (.byte 5)]
     s.moves = .input (.byte 5) :: [] ∧ s.phase = .dNeed (.lengthByte 1) ∧
      decodeWire ⟨s.slot, s.ctl⟩ (s.phase.heldBytes ++ [5]) = .ok (.bref 1 5, [])) ∧
    (let s := streamState [] 0 0x7F (.dNeed .firstByte) [.input (.byte 0x41)]
     s.moves = .input (.byte 0x41) :: [] ∧ s.phase = .dNeed .firstByte ∧
      decodeWire ⟨s.slot, s.ctl⟩ (s.phase.heldBytes ++ [0x41]) = .ok (.lit 0x41, [])) ∧
    ((pending [writeCtrl 1]).moves = [writeCtrl 1] ∧ decodeHost ⟨0, 4, .write 1⟩ = .ok (.cmdCompress 0)) ∧
    (pending [.reset ⟨none, false⟩]).moves = [.reset ⟨none, false⟩] := by decide

theorem witness_FirstReferenceByteAsksForTheSecond :
    (let s := streamState [0x41, 0x42] 7 0x01 .dToken [.input (.byte 1)]
     s.moves = [.input (.byte 1)] ∧ s.phase = .dToken ∧ s.slot.val < 8 ∧ s.ctl.getLsbD (7 - s.slot.val) = true) ∧
    (let s := streamState [] 0 0x80 (.dNeed .firstByte) [.input (.byte 1)]
     s.phase = .dNeed .firstByte ∧ s.slot.val < 8 ∧ s.ctl.getLsbD (7 - s.slot.val) = true) := by decide

theorem witness_WaitsAndUnrequestedAnswers :
    State.reset.moves = [] ∧
    ((pending [.input .endOfInput]).moves = [.input .endOfInput] ∧
      (pending [.input .endOfInput]).phase.awaitsInput = false) ∧
    ((pending [.output .ok]).moves = [.output .ok] ∧ (pending [.output .ok]).phase.offers = none) := by decide

theorem witness_StreamsGrowByTheAnsweredByte :
    ∃ s t m rest, s.runState = .busy ∧ s.moves = m :: rest ∧ (∀ f, m ≠ .reset f) ∧ step s = .next t :=
  ⟨startedC [.input (.byte 0x41)], _, _, _, rfl, rfl, by intro f; simp, rfl⟩

/-! ## The host registers -/

theorem witness_StartWritesTheRunStartColumn :
    State.reset.runState ≠ .busy ∧ ({ State.reset with runState := .error } : State).runState ≠ .busy := by decide

theorem witness_SetModeChangesOnlyMode :
    (let s := pending [.host ⟨0, 4, .write 0xFFFFFFFE#32⟩]
     s.runState ≠ .busy ∧ (0xFFFFFFFE#32).getLsbD 0 = false ∧ s.moves = [.host ⟨0, 4, .write 0xFFFFFFFE#32⟩]) := by
  decide

theorem witness_CtrlWriteWhileBusyHasNoEffect :
    (tokenD [writeCtrl 0xFFFFFFFF#32]).runState = .busy ∧
    (tokenD [writeCtrl 0xFFFFFFFF#32]).moves = [.host ⟨0, 4, .write 0xFFFFFFFF#32⟩] := by decide

theorem witness_StatusReadReturnsTheFields :
    (pending [.host ⟨4, 4, .write 77⟩]).moves = [.host ⟨4, 4, .write 77⟩] := by decide

theorem witness_OnlyWholeWordAccessesAreAnswered :
    (pending [.host ⟨4, 4, .read⟩]).moves = [.host ⟨4, 4, .read⟩] ∧
    (¬ (2 = 4 ∧ (0 = 0 ∨ 0 = 4))) ∧ (¬ (4 = 4 ∧ (8 = 0 ∨ 8 = 4))) ∧ (¬ (4 = 4 ∧ (3 = 0 ∨ 3 = 4))) := by decide

theorem witness_HostAccessLeavesARunAlone :
    ∃ s t a rest, s.runState = .busy ∧ s.moves = .host a :: rest ∧ step s = .next t :=
  ⟨tokenD [.host ⟨4, 4, .read⟩], _, _, _, rfl, rfl, rfl⟩

theorem witness_ARunEndsByCompletionErrorOrReset :
    (∃ s t a rest, Inv s ∧ s.runState = .busy ∧ s.moves = .host a :: rest ∧ step s = .next t) ∧
    (∃ s t rest, Inv s ∧ s.runState = .busy ∧ s.moves = .input .endOfInput :: rest ∧ s.phase = .dToken ∧
      step s = .next t ∧ t.runState = .done) ∧
    (∃ s t rest, Inv s ∧ s.runState = .busy ∧ s.moves = .output .ok :: rest ∧
      (∃ b k, s.phase = .cWrite b k .finish ∧ s.flushBytes.length = k + 1) ∧
      step s = .next t ∧ t.runState = .done) ∧
    (∃ s t f rest, Inv s ∧ s.runState = .busy ∧ s.moves = .reset f :: rest ∧ step s = .next t ∧
      t.runState = .idle) :=
  ⟨⟨tokenD [writeCtrl 1], _, _, _, inv_tokenD _, rfl, rfl, rfl⟩,
   ⟨tokenD [.input .endOfInput], _, _, inv_tokenD _, rfl, rfl, rfl, rfl, rfl⟩,
   ⟨offeringLast [.output .ok], _, _, inv_offeringLast _, rfl, rfl, ⟨_, _, rfl, by decide⟩, rfl, rfl⟩,
   ⟨tokenD [.reset ⟨none, false⟩], _, _, _, inv_tokenD _, rfl, rfl, rfl, rfl⟩⟩

/-- The four ways to ERROR. -/
theorem witness_ARunEndsByAnError :
    (∃ s t rest e, Inv s ∧ s.runState = .busy ∧ s.moves = .input (.err e) :: rest ∧ step s = .next t ∧
      t.runState = .error) ∧
    (∃ s t rest e, Inv s ∧ s.runState = .busy ∧ s.moves = .output (.err e) :: rest ∧ step s = .next t ∧
      t.runState = .error) ∧
    (∃ s t rest, Inv s ∧ s.runState = .busy ∧ s.moves = .input .endOfInput :: rest ∧ step s = .next t ∧
      t.runState = .error) ∧
    (∃ s t rest lm1, Inv s ∧ s.runState = .busy ∧ s.moves = .input (.byte lm1) :: rest ∧ step s = .next t ∧
      t.runState = .error) :=
  ⟨⟨startedC [.input (.err 0)], _, _, _, inv_startedC _, rfl, rfl, rfl, rfl⟩,
   ⟨offeringC [.output (.err 0)], _, _, _, inv_offeringC _, rfl, rfl, rfl, rfl⟩,
   ⟨needingD [.input .endOfInput], _, _, inv_needingD _, rfl, rfl, rfl, rfl⟩,
   ⟨needingD [.input (.byte 0)], _, _, _, inv_needingD _, rfl, rfl, rfl, rfl⟩⟩

/-! ## Reset and errors -/

theorem witness_ResetWritesNoOutput :
    (∃ t, exec (.reset ⟨none, false⟩) (copyingD []) = .next t) ∧
    (copyingD []).phase.offers = some 0x41 ∧ (copyingD []).phase.awaitsInput = false ∧
    (tokenD []).phase.offers = none := ⟨⟨_, rfl⟩, by decide, by decide, by decide⟩

theorem witness_ReadErrorAbortsTheRun :
    (startedC [.input (.err 0)]).phase.awaitsInput = true ∧ (startedC [.input (.err 0)]).moves = [.input (.err 0)] ∧
    (tokenD [.input (.err 7)]).phase.awaitsInput = true := by decide

theorem witness_WriteErrorAbortsTheRun :
    (offeringC [.output (.err 0)]).phase.offers = some 0x00 ∧
    (offeringC [.output (.err 0)]).moves = [.output (.err 0)] ∧
    (copyingD [.output (.err 28)]).phase.offers = some 0x41 := by decide

theorem witness_EndInsideATokenIsTruncated :
    (let s := streamState [] 0 0x80 (.dNeed .firstByte) [.input .endOfInput]
     s.phase = .dNeed .firstByte ∧ s.moves = [.input .endOfInput]) := by decide

theorem witness_EndAtATokenStartIsClean :
    (tokenD [.input .endOfInput]).phase = .dToken ∧ (tokenD [.input .endOfInput]).moves = [.input .endOfInput] := by
  decide

/-! ## The window -/

theorem witness_FillReturnsOrAsksForAByte :
    ((startedC []).laSize < 256 ∧ (startedC []).eofSeen = false) ∧
    ({ windowState [] [1, 2, 3, 4] [] with eofSeen := true } : State).laSize < 256 ∧
    256 ≤ ({ State.reset with laHd := 256 } : State).laSize := by decide

theorem witness_FillStoresEachByte :
    (∃ s b rest, Inv s ∧ s.phase = .cRead ∧ s.laSize + 1 < 256 ∧ s.moves = .input (.byte b) :: rest) ∧
    (∃ s b rest, Inv s ∧ s.phase = .cRead ∧ s.laSize + 1 = 256 ∧ s.moves = .input (.byte b) :: rest) :=
  ⟨⟨startedC [.input (.byte 0x41)], _, _, inv_startedC _, rfl, by decide, rfl⟩,
   ⟨nearlyFull [.input (.byte 0x41)], _, _, inv_nearlyFull _, rfl, by decide, rfl⟩⟩

theorem witness_EndInFillIsRemembered :
    ∃ s rest, Inv s ∧ s.phase = .cRead ∧ s.moves = .input .endOfInput :: rest :=
  ⟨startedC [.input .endOfInput], _, inv_startedC _, rfl, rfl⟩

theorem witness_EndIsFinalInACompressRun :
    ∃ s t, Inv s ∧ s.phase.engine = some .compress ∧ s.eofSeen = true ∧ step s = .next t ∧ t.runState = .busy :=
  ⟨offeringC [.output .ok], _, inv_offeringC _, rfl, rfl, rfl, rfl⟩

theorem witness_ShiftMovesTheCursors :
    (1 ≤ 256 ∧ 256 ≤ ({ State.reset with dictHd := 256, laHd := 512 } : State).laSize) ∧
    ({ State.reset with dictHd := 256, laHd := 512 } : State).laSize < 257 := by decide

theorem witness_ShiftMovesBytesIntoTheDictionary :
    WindowOk { State.reset with dictHd := 256, laHd := 512 } ∧
    256 ≤ ({ State.reset with dictHd := 256, laHd := 512 } : State).laSize :=
  ⟨⟨by decide, by decide⟩, by decide⟩

theorem witness_FillWritesAFreeCell :
    WindowOk { State.reset with dictHd := 256, laHd := 511 } ∧
    ({ State.reset with dictHd := 256, laHd := 511 } : State).laSize < 256 ∧
    510 < ({ State.reset with dictHd := 256, laHd := 511 } : State).dictSize +
      ({ State.reset with dictHd := 256, laHd := 511 } : State).laSize :=
  ⟨⟨by decide, by decide⟩, by decide, by decide⟩

/-! ## Table, search, policy -/

/-- The window "AA" | "AAA" with its table. -/
def aaState : State := windowState [0x41, 0x41] [0x41, 0x41, 0x41] [0, 1, 2]

/-- The same window after `End`. -/
def aaEnd : State := { aaState with eofSeen := true }

theorem witness_BuildTableWritesTheLongestBorders : WindowOk aaState ∧ LiveWritten aaState :=
  ⟨⟨by decide, by decide⟩, by
    intro q h
    have h5 : q < 5 := h
    interval_cases q <;> rfl⟩

theorem witness_SearchFindsTheLongestOldestMatch :
    WindowOk aaState ∧ LiveWritten aaState ∧ TableUpTo aaState (aaState.laSize - 1) := by
  refine ⟨witness_BuildTableWritesTheLongestBorders.1, witness_BuildTableWritesTheLongestBorders.2, ?_⟩
  intro k h
  have h2 : k < 2 := h
  rcases (by omega : k = 0 ∨ k = 1) with rfl | rfl
  · exact ⟨0, rfl, ⟨by decide, by rintro q ⟨⟩⟩, fun l' h' => h'.1⟩
  · refine ⟨1, rfl, ⟨by decide, ?_⟩, fun l' h' => h'.1⟩
    intro q hq
    have hq1 : q < 1 := hq
    obtain rfl : q = 0 := by omega
    rfl

theorem witness_SearchOnAnEmptySideFindsNothing :
    (windowState [0x41] [] []).laSize = 0 ∧ (windowState [] [0x41] []).dictSize = 0 := by decide

theorem witness_PolicyGivesALiteral :
    (let s := windowState [] [0x58] []
     1 ≤ s.laSize ∧ s.laByte 0 = some 0x58 ∧ 1 < 2) ∧
    (let s := windowState [0x51, 0x52, 0x53, 0x41, 0x42, 0x54] [0x41, 0x42, 0x41, 0x53] []
     s.laByte 0 = some 0x41 ∧ 3 < s.laSize ∧ s.laByte 2 = some 0x41 ∧ s.laByte 3 = some 0x53 ∧
      s.textByte 2 = some 0x53) := by decide

theorem witness_PolicyGivesAReference :
    WindowOk (windowState [0x41, 0x41, 0x42] [0x41, 0x41, 0x41] []) ∧
    (let s := windowState [0x41, 0x41, 0x42] [0x41, 0x41, 0x41] []
     s.laByte 0 = some 0x41 ∧ (2 : Cursor).toNat < s.dictSize ∧ 2 ≤ 2 ∧ 2 ≤ s.laSize ∧ ¬ 3 < s.laSize) ∧
    (let s := windowState [0x41, 0x42] [0x41, 0x42, 0x43, 0x44] []
     s.laByte 0 = some 0x41 ∧ (0 : Cursor).toNat < s.dictSize ∧ 3 < s.laSize ∧ s.laByte 2 = some 0x43 ∧
      s.laByte 3 = some 0x44 ∧ s.textByte 2 = some 0x41) :=
  ⟨⟨by decide, by decide⟩, by decide, by decide⟩

/-! ## Framer -/

theorem witness_AcceptStoresOrFlushesFirst :
    State.reset.n.val = 0 ∧
    (1 ≤ ({ State.reset with n := 7 } : State).n.val ∧ ({ State.reset with n := 7 } : State).n.val < 8) ∧
    ({ State.reset with n := 8 } : State).n.val = 8 ∧
    (let s := { State.reset with
       n := 8, phase := .cWrite 0x00 8 (.accept (litForm 0x49)), moves := [.output .ok] }
     s.phase = .cWrite 0x00 8 (.accept (litForm 0x49)) ∧ s.flushBytes.length = 8 + 1 ∧
      s.moves = .output .ok :: []) := by decide

theorem witness_FlushFinishAndEmitOfferTheirByte :
    1 ≤ ({ State.reset with n := 1 } : State).n.val ∧ State.reset.n.val = 0 ∧
    (offeringC [.output .ok]).phase = .cWrite 0x00 0 .finish ∧
    (offeringC [.output .ok]).flushBytes[0 + 1]? = some 0x41 ∧
    (offeringC [.output .ok]).moves = .output .ok :: [] := by decide

theorem witness_BrokenPreconditionsStop : State.reset.n.val = 0 := by decide

theorem witness_FinishWritesTheWholeGroup :
    (let s := { State.reset with
       n := 2, c := 0x40, tok := (State.reset.tok.setIfInBounds 0 (litForm 0x41)).setIfInBounds 1 (refForm 0 8)
       moves := List.replicate 4 (.output .ok) }
     1 ≤ s.n.val ∧
      s.moves = List.replicate (1 + ((s.tok.toList.take s.n.val).flatMap
        fun tk => if tk.kind then [tk.a, tk.b] else [tk.a]).length) (.output .ok) ++ [] ∧
      after (exec .finish s) (·.phase) = some (.cWrite 0x40 0 .finish)) := by decide

theorem witness_CompressRunComesToATransaction :
    (WindowOk aaEnd ∧ LiveWritten aaEnd ∧ 1 ≤ aaEnd.laSize ∧ aaEnd.eofSeen = true ∧ aaEnd.n.val ≠ 8) ∧
    (let s := { aaEnd with n := 8 }
     WindowOk s ∧ LiveWritten s ∧ 1 ≤ s.laSize ∧ s.eofSeen = true ∧ s.n.val = 8) ∧
    (WindowOk started ∧ LiveWritten started ∧ started.laSize < 256 ∧ started.eofSeen = false) ∧
    (let s := { started with eofSeen := true }
     WindowOk s ∧ LiveWritten s ∧ s.laSize = 0 ∧ s.eofSeen = true ∧ s.n.val = 0) ∧
    (WindowOk offering ∧ LiveWritten offering ∧ offering.laSize = 0 ∧
      offering.eofSeen = true ∧ 1 ≤ offering.n.val) := by
  have hw := witness_BuildTableWritesTheLongestBorders
  have hs := inv_started.compress rfl
  have ho := inv_offering.compress rfl
  exact ⟨⟨⟨hw.1.1, hw.1.2⟩, hw.2, by decide⟩, ⟨⟨hw.1.1, hw.1.2⟩, hw.2, by decide⟩,
    ⟨hs.window, hs.live, by decide⟩, ⟨⟨hs.window.1, hs.window.2⟩, hs.live, by decide⟩,
    ⟨ho.window, ho.live, by decide⟩⟩

/-! ## Deframer -/

theorem witness_AcceptedLiteralIsStored :
    (let s := streamState [0x41, 0x42] 7 0x00 (.dWrite 0x43 .literal) [.output .ok]
     s.phase = .dWrite 0x43 .literal ∧ s.slot.val < 8 ∧ s.moves = [.output .ok]) := by decide

theorem witness_ReferenceBeforeTheOutputIsAnError :
    (streamState [0x41] 1 0x40 .dToken []).filled.val < (0x01 : Byte).toNat + 1 := by decide

theorem witness_ReferenceOffersItsFirstByte :
    (let s := tokenD []
     (0x01 : Byte).toNat + 1 ≤ s.filled.val ∧
      s.ring.read (s.cursor - BitVec.ofNat 8 ((0x01 : Byte).toNat + 1)).toNat = some 0x41) := by decide

theorem witness_CopyRepeatsTheOutput :
    ∃ s t rest, RingHoldsOutput s ∧ (0x01 : Byte).toNat + 1 ≤ s.filled.val ∧ s.slot.val < 8 ∧
      s.moves = List.replicate ((0x05 : Byte).toNat + 1) (.output .ok) ++ rest ∧
      exec (.copy 0x01 0x05) s = .next t :=
  ⟨tokenD (List.replicate 6 (.output .ok)), _, [], ring_withMoves ring_waiting _, by decide, by decide, by decide, rfl⟩

theorem witness_RingHoldsTheLastOutput :
    ∃ s t, Inv s ∧ (s.phase.engine = some .decompress → RingHoldsOutput s) ∧ step s = .next t ∧
      t.phase.engine = some .decompress :=
  ⟨copyingD [.output .ok], _, inv_copyingD _, fun _ => ring_withMoves ring_copying _, rfl, rfl⟩

/-! ## Invariants -/

theorem witness_StepKeepsInv : ∃ s t, Inv s ∧ step s = .next t := ⟨copyingD [.output .ok], _, inv_copyingD _, rfl⟩

theorem witness_NoFaultIsReached : Inv (offeringC [.output .ok]) := inv_offeringC _

theorem witness_AnAnsweredTransactionGoesOn :
    (∃ s m rest, Inv s ∧ s.moves = m :: rest ∧ s.phase.awaitsInput = true ∧ ∃ a, m = .input a) ∧
    (∃ s m rest, Inv s ∧ s.moves = m :: rest ∧ (∃ b, s.phase.offers = some b) ∧ ∃ a, m = .output a) :=
  ⟨⟨tokenD [.input (.byte 0)], _, _, inv_tokenD _, rfl, rfl, _, rfl⟩,
   ⟨offeringC [.output (.err 1)], _, _, inv_offeringC _, rfl, ⟨_, rfl⟩, _, rfl⟩⟩

theorem witness_DoneOnlyAfterTheLastWrite :
    ∃ s t b, Inv s ∧ s.phase.offers = some b ∧ step s = .next t ∧ t.runState = .done :=
  ⟨offeringLast [.output .ok], _, _, inv_offeringLast _, rfl, rfl, rfl⟩

theorem witness_EnginesLeaveEachOtherAlone :
    (∃ s t, Inv s ∧ step s = .next t ∧ t.phase ≠ .error ∧ (∀ f rest, s.moves ≠ .reset f :: rest) ∧
      s.phase.engine = some .decompress) ∧
    (∃ s t, Inv s ∧ step s = .next t ∧ t.phase ≠ .error ∧ (∀ f rest, s.moves ≠ .reset f :: rest) ∧
      s.phase.engine = some .compress) :=
  ⟨⟨copyingD [.output .ok], _, inv_copyingD _, rfl, by decide, by intro f r; simp [copyingD], rfl⟩,
   ⟨offeringC [.output .ok], _, inv_offeringC _, rfl, by decide, by intro f r; simp [offeringC], rfl⟩⟩

/-! ## Whole runs -/

/-- S-2: compress of `41` gives `00 41`. -/
theorem run_compress_one_byte :
    ∃ t, RunOf .compress t ∧ t.runState = .done ∧ t.inTaken = [0x41] ∧ t.outTaken = [0x00, 0x41] := by
  have h0 := RunOf.start (e := .compress)
    (restedWith [.input (.byte 0x41), .input .endOfInput, .output .ok, .output .ok]) _ (inv_restedWith _) (by decide) rfl
  have h1 := RunOf.step _ _ h0 rfl rfl
  have h2 := RunOf.step _ _ h1 rfl rfl
  have h3 := RunOf.step _ _ h2 rfl rfl
  exact ⟨_, RunOf.step _ _ h3 rfl rfl, rfl, rfl, rfl⟩

/-- S-2: decompress of `00 41` gives `41`. -/
theorem run_decompress_one_byte :
    ∃ t, RunOf .decompress t ∧ t.runState = .done ∧ t.inTaken = [0x00, 0x41] ∧ t.outTaken = [0x41] := by
  have h0 := RunOf.start (e := .decompress)
    (restedWith [.input (.byte 0x00), .input (.byte 0x41), .output .ok, .input .endOfInput]) _ (inv_restedWith _)
    (by decide) rfl
  have h1 := RunOf.step _ _ h0 rfl rfl
  have h2 := RunOf.step _ _ h1 rfl rfl
  have h3 := RunOf.step _ _ h2 rfl rfl
  exact ⟨_, RunOf.step _ _ h3 rfl rfl, rfl, rfl, rfl⟩

theorem witness_CompressRunFramesItsInput : ∃ t, RunOf .compress t ∧ t.runState = .done :=
  run_compress_one_byte.imp fun _ h => ⟨h.1, h.2.1⟩

theorem witness_CompressedLengthIsBounded : ∃ t, RunOf .compress t ∧ t.runState = .done :=
  witness_CompressRunFramesItsInput

theorem witness_DecompressRunDecodesItsInput : ∃ t, RunOf .decompress t ∧ t.runState = .done :=
  run_decompress_one_byte.imp fun _ h => ⟨h.1, h.2.1⟩

theorem witness_DecompressUndoesCompress :
    ∃ t u, RunOf .compress t ∧ t.runState = .done ∧ RunOf .decompress u ∧ u.inTaken <+: t.outTaken ∧
      u.runState = .done ∧ u.inTaken = t.outTaken := by
  obtain ⟨t, ht, hd, _, ho⟩ := run_compress_one_byte
  obtain ⟨u, hu, hud, hi, _⟩ := run_decompress_one_byte
  exact ⟨t, u, ht, hd, hu, by rw [hi, ho], hud, by rw [hi, ho]⟩

end Sys2Proof.Tests
end

section
/-! SUPPORT. How an operation ends, read as facts about the state it ends in: the frame lemmas and the progress lemmas
of the two engines are stated with these. -/

namespace Sys2Proof.Machine

/-- The operation comes to an end in `t`: it returns there or stops the controller there. -/
def Ran.Ends {α : Type} : Ran α → State → Prop
  | .returned _ s, t => s = t
  | .stops s, t => s = t
  | .fault _, _ => False

@[simp] theorem Ran.ends_returned {α : Type} (a : α) (s t : State) : (Ran.returned a s).Ends t ↔ s = t := .rfl
@[simp] theorem Ran.ends_stops {α : Type} (s t : State) : (Ran.stops s : Ran α).Ends t ↔ s = t := .rfl
@[simp] theorem Ran.not_ends_fault {α : Type} (f : Fault) (t : State) : ¬ (Ran.fault f : Ran α).Ends t := id

/-- An operation without a value, run as an instruction, answers the state it ends in. -/
theorem Ran.outcome_keepNone_eq_next {r : Ran Unit} {t : State} : r.outcome keepNone = .next t ↔ r.Ends t := by
  cases r <;> simp

/-- The part `part` of the state is after `r` what it was in `s`. -/
def Ran.Keeps {α β : Type} (part : State → β) (s : State) (r : Ran α) : Prop := ∀ t, r.Ends t → part t = part s

section
variable {α β γ : Type} {part : State → γ} {s : State}

theorem Ran.keeps_returned {a : α} {u : State} (h : part u = part s) : (Ran.returned a u).Keeps part s := by
  rintro t rfl
  exact h

theorem Ran.keeps_stops {u : State} (h : part u = part s) : (Ran.stops u : Ran α).Keeps part s := by
  rintro t rfl
  exact h

theorem Ran.keeps_fault (f : Fault) : (Ran.fault f : Ran α).Keeps part s := by
  rintro t ⟨⟩

theorem Ran.keeps_trans {u : State} {r : Ran α} (h : part u = part s) (hr : r.Keeps part u) : r.Keeps part s :=
  fun t ht => (hr t ht).trans h

theorem Ran.keeps_andThen {r : Ran α} {k : α → State → Ran β} (hr : r.Keeps part s)
    (hk : ∀ a u, (k a u).Keeps part u) : (r.andThen k).Keeps part s := by
  cases r with
  | returned a u => exact Ran.keeps_trans (hr u rfl) (hk a u)
  | stops u => exact hr
  | fault f => exact Ran.keeps_fault f

theorem Ran.keeps_ofExcept {r : Except Fault α} {k : α → Ran β} (hk : ∀ a, r = .ok a → (k a).Keeps part s) :
    (Ran.ofExcept r k).Keeps part s := by
  cases r with
  | ok a => exact hk a rfl
  | error f => exact Ran.keeps_fault f

end

end Sys2Proof.Machine
end

section
/-! SUPPORT. What the operations of each engine leave unchanged (spec/00_scope.md R2; spec/10_state.md R20). -/

namespace Sys2Proof.Machine

/-! ## The two engines' parts of the state -/

/-- The compress engine's registers and memories (R21 to R30). -/
def compressPart (s : State) : Memory × Cursor × Cursor × Cursor × Bool × Memory × Fin 9 × Byte × Vector TokReg 8 :=
  (s.bf, s.dictTl, s.dictHd, s.laHd, s.eofSeen, s.t, s.n, s.c, s.tok)

/-- The decompress engine's registers and memory (R32 to R36). -/
def decompressPart (s : State) : Memory × Byte × Fin 257 × Byte × Fin 9 :=
  (s.ring, s.cursor, s.filled, s.ctl, s.slot)

/-- Everything a compress run's own operations leave unchanged: the state with the compress engine, the program
point, STATE and the draw counter blanked. -/
def outsideCompress (s : State) : State :=
  { s with
    bf := [], dictTl := 0, dictHd := 0, laHd := 0, eofSeen := false, t := [], n := 0, c := 0,
    tok := State.reset.tok, phase := .idle, runState := .idle, draws := 0 }

/-- Everything a decompress run's own operations leave unchanged: the state with the decompress engine, the program
point and STATE blanked. -/
def outsideDecompress (s : State) : State :=
  { s with ring := [], cursor := 0, filled := 0, ctl := 0, slot := 0, phase := .idle, runState := .idle }

theorem decompressPart_eq_of_outsideCompress {s t : State} (h : outsideCompress t = outsideCompress s) :
    decompressPart t = decompressPart s :=
  show decompressPart (outsideCompress t) = decompressPart (outsideCompress s) from congrArg decompressPart h

theorem compressPart_eq_of_outsideDecompress {s t : State} (h : outsideDecompress t = outsideDecompress s) :
    compressPart t = compressPart s :=
  show compressPart (outsideDecompress t) = compressPart (outsideDecompress s) from congrArg compressPart h

/-! ## The compress engine's operations -/

theorem fill_keeps (s : State) : (fill s).Keeps outsideCompress s := by
  obtain ⟨-, h⟩ | ⟨-, -, h⟩ | ⟨-, -, h⟩ := fill_cases s
  · exact h ▸ Ran.keeps_returned rfl
  · exact h ▸ Ran.keeps_returned rfl
  · exact h ▸ Ran.keeps_stops rfl

theorem buildTable_keeps (s : State) : (buildTable s).Keeps outsideCompress s :=
  Ran.keeps_ofExcept fun _ _ => Ran.keeps_returned rfl

theorem search_keeps (s : State) : (search s).Keeps outsideCompress s :=
  Ran.keeps_ofExcept fun _ _ => Ran.keeps_returned rfl

theorem shiftWindow_outsideCompress {n : Nat} {s t : State} (h : shiftWindow n s = .ok t) :
    outsideCompress t = outsideCompress s := by
  obtain ⟨-, rfl⟩ := shiftWindow_eq_ok.mp h
  rfl

theorem policy_keeps (o : Cursor) (len : Nat) (s : State) : (policy o len s).Keeps outsideCompress s := by
  refine Ran.keeps_ofExcept fun s0 _ => Ran.keeps_ofExcept fun lit _ => ?_
  split
  · exact Ran.keeps_ofExcept fun u hu =>
      Ran.keeps_returned (show outsideCompress u = _ from shiftWindow_outsideCompress hu)
  · exact Ran.keeps_ofExcept fun u hu => Ran.keeps_returned (shiftWindow_outsideCompress hu)

theorem produceToken_keeps (s : State) : (produceToken s).Keeps outsideCompress s :=
  Ran.keeps_andThen (buildTable_keeps s) fun _ s =>
    Ran.keeps_andThen (search_keeps s) fun r s => policy_keeps r.1 r.2 s

theorem accept_keeps (tok : TokReg) (s : State) : (accept tok s).Keeps outsideCompress s := by
  obtain ⟨-, h⟩ | ⟨-, h⟩ | ⟨-, -, h⟩ := accept_cases tok s
  · exact h ▸ Ran.keeps_returned rfl
  · exact h ▸ Ran.keeps_stops rfl
  · exact h ▸ Ran.keeps_returned rfl

theorem finish_keeps (s : State) : (finish s).Keeps outsideCompress s := by
  obtain ⟨-, h⟩ | ⟨-, h⟩ := finish_cases s
  · exact h ▸ Ran.keeps_returned rfl
  · exact h ▸ Ran.keeps_stops rfl

theorem compressLoop_keeps (fuel : Nat) (s : State) : (compressLoop fuel s).Keeps outsideCompress s := by
  induction fuel generalizing s with
  | zero => exact Ran.keeps_fault _
  | succ fuel ih =>
    refine Ran.keeps_andThen (fill_keeps s) fun _ s => ?_
    split
    · exact Ran.keeps_andThen (finish_keeps s) fun _ s => Ran.keeps_returned rfl
    · exact Ran.keeps_andThen (produceToken_keeps s) fun tok s =>
        Ran.keeps_andThen (accept_keeps tok s) fun _ s => ih s

theorem compressFrom_keeps (s : State) : (compressFrom s).Keeps outsideCompress s := compressLoop_keeps _ s

theorem flushReturn_keeps (site : FlushSite) (s : State) : (flushReturn site s).Keeps outsideCompress s := by
  cases site with
  | accept tok => exact Ran.keeps_trans rfl (compressFrom_keeps (storeTok tok (openGroup s)))
  | finish => exact Ran.keeps_returned rfl

theorem flushOn_keeps (k : Nat) (site : FlushSite) (s : State) : (flushOn k site s).Keeps outsideCompress s := by
  unfold flushOn
  split
  · exact Ran.keeps_stops rfl
  · exact flushReturn_keeps site s

/-! ## The decompress engine's operations -/

theorem copyStep_keeps (src : Byte) (left : Nat) (s : State) : (copyStep src left s).Keeps outsideDecompress s :=
  Ran.keeps_ofExcept fun _ _ => Ran.keeps_stops rfl

theorem putReturn_keeps (site : PutSite) (s : State) : (putReturn site s).Keeps outsideDecompress s := by
  rcases site with _ | ⟨src, _ | left⟩
  · exact Ran.keeps_stops rfl
  · exact Ran.keeps_stops rfl
  · exact copyStep_keeps (src + 1) left s

/-- A copy raises BAD_REFERENCE, or touches the decompress engine only (R245, R246). -/
theorem copy_keeps {off lm1 : Byte} {s t : State} (h : (copy off lm1 s).Ends t) (he : t.phase ≠ .error) :
    outsideDecompress t = outsideDecompress s := by
  obtain ⟨-, hc⟩ | ⟨-, b, -, hc⟩ | ⟨-, -, hc⟩ := copy_cases off lm1 s
  · obtain rfl : raiseError .badReference Config.genericIoError s = t := by rwa [hc] at h
    exact absurd rfl he
  · obtain rfl : setPhase _ s = t := by rwa [hc] at h
    rfl
  · rw [hc] at h
    exact absurd h (Ran.not_ends_fault _ t)

end Sys2Proof.Machine
end

section
/-! SUPPORT. What a step does with a move, said once for each kind of move (spec/47_driver_and_host.md R270, R283,
R284). -/

namespace Sys2Proof.Machine

/-! ## The record of the move -/

section
variable (s : State) (m : Move) (rest : List Move)

@[simp] theorem recordMove_phase : (recordMove s m rest).phase = s.phase := by rw [recordMove_eq]
@[simp] theorem recordMove_runState : (recordMove s m rest).runState = s.runState := by rw [recordMove_eq]
@[simp] theorem recordMove_slot : (recordMove s m rest).slot = s.slot := by rw [recordMove_eq]
@[simp] theorem recordMove_ctl : (recordMove s m rest).ctl = s.ctl := by rw [recordMove_eq]
@[simp] theorem recordMove_compressPart : compressPart (recordMove s m rest) = compressPart s := by
  rw [recordMove_eq]; rfl
@[simp] theorem recordMove_decompressPart : decompressPart (recordMove s m rest) = decompressPart s := by
  rw [recordMove_eq]; rfl

/-- The outside world's records are no part of the invariant. -/
theorem recordMove_inv {s : State} (h : Inv s) : Inv (recordMove s m rest) := by
  rw [recordMove_eq]
  exact
    { memories := { h.memories with }
      status := { h.status with }
      compress := fun e => have c := h.compress e; { c with window := { c.window with } }
      decompress := fun e => { h.decompress e with } }

end

/-! ## Unrequested answers -/

theorem fetchInput_unrequested {s : State} (a : InAnswer) (h : s.phase.awaitsInput = false) :
    fetchInput s a = .refused .unrequestedAnswer := by
  unfold fetchInput
  cases hp : s.phase with
  | cRead | dToken | dNeed site => simp [hp, Phase.awaitsInput] at h
  | idle | cWrite b k site | dWrite b site | done | error => rfl

theorem fetchOutput_unrequested {s : State} (a : OutAnswer) (h : s.phase.offers = none) :
    fetchOutput s a = .refused .unrequestedAnswer := by
  simp [fetchOutput, h]

theorem step_input_unrequested {s : State} {a : InAnswer} {rest : List Move} (hm : s.moves = .input a :: rest)
    (h : s.phase.awaitsInput = false) : step s = .refused .unrequestedAnswer := by
  simp [step_of_move hm, runMove, fetch, fetchInput_unrequested a h]

theorem step_output_unrequested {s : State} {a : OutAnswer} {rest : List Move} (hm : s.moves = .output a :: rest)
    (h : s.phase.offers = none) : step s = .refused .unrequestedAnswer := by
  simp [step_of_move hm, runMove, fetch, fetchOutput_unrequested a h]

/-! ## Requested answers -/

/-- What a step does with the answer to the outstanding transaction; `u` is the state with the answer recorded. -/
inductive AnswerStep (u : State) : Move → Outcome → Prop
  /-- Fill stores its byte, and the driver goes on (R131). -/
  | fillByte {b : Byte} (hp : u.phase = .cRead) :
      AnswerStep u (.input (.byte b)) ((fillByte b u).outcome keepNone)
  /-- Fill has seen `End`, and the driver goes on (R131). -/
  | fillEnd (hp : u.phase = .cRead) : AnswerStep u (.input .endOfInput) ((fillEnd u).outcome keepNone)
  /-- A group's control byte; its first token's first byte is asked for (R241). -/
  | ctrlByte {b : Byte} (hp : u.phase = .dToken ∨ u.phase = .dNeed .firstByte) (hs : u.slot.val = 8) :
      AnswerStep u (.input (.byte b)) (.next (setPhase (.dNeed .firstByte) (openCtl b u)))
  /-- A literal is offered (R243). -/
  | literal {b : Byte} (hp : u.phase = .dToken ∨ u.phase = .dNeed .firstByte) (hs : u.slot.val ≠ 8)
      (hk : kindBit u.ctl u.slot.val = false) :
      AnswerStep u (.input (.byte b)) (.next (setPhase (.dWrite b .literal) u))
  /-- A reference's first byte is held, and its second asked for (R248). -/
  | offsetByte {b : Byte} (hp : u.phase = .dToken ∨ u.phase = .dNeed .firstByte) (hs : u.slot.val ≠ 8)
      (hk : kindBit u.ctl u.slot.val = true) :
      AnswerStep u (.input (.byte b)) (.next (setPhase (.dNeed (.lengthByte b)) u))
  /-- A reference's second byte: its copy begins (R245). -/
  | lengthByte {off b : Byte} (hp : u.phase = .dNeed (.lengthByte off)) :
      AnswerStep u (.input (.byte b)) ((copy off b u).outcome keepNone)
  /-- `End` at the start of a token ends the run (R247). -/
  | cleanEnd (hp : u.phase = .dToken) : AnswerStep u (.input .endOfInput) (.next (endRun u))
  /-- `End` inside a token (R248, R304). -/
  | truncated {site : NeedSite} (hp : u.phase = .dNeed site) :
      AnswerStep u (.input .endOfInput) (.next (raiseError .truncated Config.genericIoError u))
  /-- `Err` of the input channel (R302). -/
  | readError {e : Errno} (ha : u.phase.awaitsInput = true) :
      AnswerStep u (.input (.err e)) (.next (raiseError .readError e u))
  /-- Byte `k` of a group was accepted (R213). -/
  | groupByte {b : Byte} {k : Nat} {site : FlushSite} (hp : u.phase = .cWrite b k site) :
      AnswerStep u (.output .ok) ((flushOn k site u).outcome keepNone)
  /-- Put's byte was accepted (R243, R245). -/
  | outputByte {b : Byte} {site : PutSite} (hp : u.phase = .dWrite b site) :
      AnswerStep u (.output .ok) ((putReturn site (storeOutput b u)).outcome keepNone)
  /-- `Err` of the output channel (R303). -/
  | writeError {b : Byte} {e : Errno} (ho : u.phase.offers = some b) :
      AnswerStep u (.output (.err e)) (.next (raiseError .writeError e u))

/-- A form's first byte is a control byte, a literal, or the offset of a reference (R94, R240). -/
theorem fetchWire_cases (s : State) (b : Byte) :
    (s.slot.val = 8 ∧ fetchWire s b = .instr (.ctrlByte b)) ∨
    (s.slot.val ≠ 8 ∧ kindBit s.ctl s.slot.val = false ∧ fetchWire s b = .instr (.lit b)) ∨
    (s.slot.val ≠ 8 ∧ kindBit s.ctl s.slot.val = true ∧
      fetchWire s b = .instr (.needByte (.lengthByte b))) := by
  by_cases hs : s.slot.val = 8
  · simp [fetchWire, decodeWire, State.wirePos, WirePos.atBoundary, hs]
  · cases hk : kindBit s.ctl s.slot.val <;>
      simp [fetchWire, decodeWire, State.wirePos, WirePos.atBoundary, hs, hk]

/-- A byte that arrives where a form's first byte is awaited. -/
theorem answerStep_firstByte {s : State} {b : Byte} {rest : List Move} (hm : s.moves = .input (.byte b) :: rest)
    (hp : s.phase = .dToken ∨ s.phase = .dNeed .firstByte) :
    AnswerStep (recordMove s (.input (.byte b)) rest) (.input (.byte b)) (step s) := by
  have hf : fetch s (.input (.byte b)) = fetchWire s b := by
    rcases hp with hp | hp <;> simp only [fetch, fetchInput, hp]
  rw [step_of_move hm, runMove, hf]
  obtain ⟨hs, hw⟩ | ⟨hs, hk, hw⟩ | ⟨hs, hk, hw⟩ := fetchWire_cases s b
  · rw [hw]
    exact .ctrlByte (by simpa using hp) (by simpa using hs)
  · rw [hw]
    exact .literal (by simpa using hp) (by simpa using hs) (by simpa using hk)
  · rw [hw]
    exact .offsetByte (by simpa using hp) (by simpa using hs) (by simpa using hk)

/-- Every answer to an outstanding `InRead` (R131, R240, R247, R248, R302). -/
theorem answerStep_input {s : State} {a : InAnswer} {rest : List Move} (hm : s.moves = .input a :: rest)
    (ha : s.phase.awaitsInput = true) : AnswerStep (recordMove s (.input a) rest) (.input a) (step s) := by
  have hu := recordMove_phase s (.input a) rest
  have hua : (recordMove s (.input a) rest).phase.awaitsInput = true := by rw [hu, ha]
  cases a with
  | err e =>
    have hf : fetch s (.input (.err e)) = .instr (.abort .readError e) := by
      cases hp : s.phase with
      | idle | cWrite b k site | dWrite b site | done | error => simp [hp, Phase.awaitsInput] at ha
      | cRead | dToken => simp only [fetch, fetchInput, hp]
      | dNeed site => cases site <;> simp only [fetch, fetchInput, hp]
    rw [step_of_move hm, runMove, hf]
    exact .readError hua
  | endOfInput =>
    cases hp : s.phase with
    | idle | cWrite b k site | dWrite b site | done | error => simp [hp, Phase.awaitsInput] at ha
    | cRead =>
      simp only [step_of_move hm, runMove, fetch, fetchInput, hp]
      exact .fillEnd (hu.trans hp)
    | dToken =>
      simp only [step_of_move hm, runMove, fetch, fetchInput, hp]
      exact .cleanEnd (hu.trans hp)
    | dNeed site =>
      have hf : fetch s (.input .endOfInput) = .instr (.abort .truncated Config.genericIoError) := by
        cases site <;> simp only [fetch, fetchInput, hp]
      rw [step_of_move hm, runMove, hf]
      exact .truncated (hu.trans hp)
  | byte b =>
    cases hp : s.phase with
    | idle | cWrite b k site | dWrite b site | done | error => simp [hp, Phase.awaitsInput] at ha
    | cRead =>
      simp only [step_of_move hm, runMove, fetch, fetchInput, hp]
      exact .fillByte (hu.trans hp)
    | dToken => exact answerStep_firstByte hm (.inl hp)
    | dNeed site =>
      cases site with
      | firstByte => exact answerStep_firstByte hm (.inr hp)
      | lengthByte off =>
        simp only [step_of_move hm, runMove, fetch, fetchInput, hp]
        exact .lengthByte (hu.trans hp)

/-- Every answer to an outstanding `OutWrite` (R213, R243, R303). -/
theorem answerStep_output {s : State} {a : OutAnswer} {b : Byte} {rest : List Move}
    (hm : s.moves = .output a :: rest) (ho : s.phase.offers = some b) :
    AnswerStep (recordMove s (.output a) rest) (.output a) (step s) := by
  have hu := recordMove_phase s (.output a) rest
  simp only [step_of_move hm, runMove, fetch, fetchOutput, ho]
  cases a with
  | err e => exact .writeError (hu.symm ▸ ho)
  | ok =>
    simp only [resume, writeOk, hu]
    cases hp : s.phase with
    | idle | cRead | dToken | dNeed site | done | error => simp [hp, Phase.offers] at ho
    | cWrite b k site => exact .groupByte (hu.trans hp)
    | dWrite b site => exact .outputByte (hu.trans hp)

/-! ## Host accesses -/

/-- A host access that is an instruction reads one of the registers, or writes CTRL (R66). -/
theorem decodeHost_eq_ok {a : HostAccess} {i : Instr} (h : decodeHost a = .ok i) :
    i = .rdCtrl ∨ i = .rdStatus ∨ ∃ w, i = decodeCtrlWrite w := by
  obtain ⟨offset, size, _ | w⟩ := a
  · simp only [decodeHost] at h
    split_ifs at h <;> simp_all
  · simp only [decodeHost] at h
    split_ifs at h
    exact .inr (.inr ⟨w, by simpa using h.symm⟩)

theorem fetchHost_cases (a : HostAccess) :
    (∃ i, fetchHost a = .instr i ∧ (i = .rdCtrl ∨ i = .rdStatus ∨ ∃ w, i = decodeCtrlWrite w)) ∨
    fetchHost a = .ignored ∨ ∃ r, fetchHost a = .refused r := by
  unfold fetchHost
  cases hd : decodeHost a with
  | ok i => exact .inl ⟨i, rfl, decodeHost_eq_ok hd⟩
  | error r => cases r <;> simp

/-- R277. -/
theorem exec_decodeCtrlWrite_of_busy {s : State} (w : Word) (h : s.runState = .busy) :
    exec (decodeCtrlWrite w) s = .next s := by
  unfold decodeCtrlWrite
  split
  · split <;> exact if_pos h
  · exact if_pos h

/-- A host access while BUSY changes the word last read at most (R277 to R279, R285). -/
theorem step_host_of_busy {s t : State} {a : HostAccess} {rest : List Move} (hm : s.moves = .host a :: rest)
    (hb : s.runState = .busy) (h : step s = .next t) :
    ∃ w, t = { recordMove s (.host a) rest with hostData := w } := by
  rw [step_of_move hm, runMove, fetch] at h
  obtain ⟨i, hf, hi⟩ | hf | ⟨r, hf⟩ := fetchHost_cases a
  · rw [hf] at h
    obtain rfl | rfl | ⟨w, rfl⟩ := hi
    · cases h; exact ⟨_, rfl⟩
    · cases h; exact ⟨_, rfl⟩
    · have hu := exec_decodeCtrlWrite_of_busy w (s := recordMove s (.host a) rest) hb
      cases hu.symm.trans h; exact ⟨_, rfl⟩
  · rw [hf] at h
    cases h; exact ⟨_, rfl⟩
  · rw [hf] at h
    cases h

/-! ## The step of a run -/

/-- A step of a run that is no reset waits, serves the host, or takes the answer to the outstanding transaction
(R270, R283). -/
theorem step_of_busy_cases {s t : State} (hb : s.runState = .busy) (h : step s = .next t)
    (hr : ∀ f rest, s.moves ≠ .reset f :: rest) :
    t = s ∨ (∃ a rest w, s.moves = .host a :: rest ∧ t = { recordMove s (.host a) rest with hostData := w }) ∨
    ∃ m rest, s.moves = m :: rest ∧ AnswerStep (recordMove s m rest) m (.next t) := by
  rcases hm : s.moves with _ | ⟨a | a | a | f, rest⟩
  · rw [step_of_no_move hm] at h
    cases h
    exact .inl rfl
  · cases ha : s.phase.awaitsInput with
    | true => exact .inr (.inr ⟨_, rest, rfl, h ▸ answerStep_input hm ha⟩)
    | false => rw [step_input_unrequested hm ha] at h; cases h
  · cases ho : s.phase.offers with
    | some b => exact .inr (.inr ⟨_, rest, rfl, h ▸ answerStep_output hm ho⟩)
    | none => rw [step_output_unrequested hm ho] at h; cases h
  · obtain ⟨w, hw⟩ := step_host_of_busy hm hb h
    exact .inr (.inl ⟨a, rest, w, rfl, hw⟩)
  · exact absurd hm (hr f rest)

/-- A phase that belongs to a run goes with BUSY (R39, R284). -/
theorem runState_busy_of_engine {s : State} {e : Engine} (h : Inv s) (he : s.phase.engine = some e) :
    s.runState = .busy := by
  rw [h.status.state_of_phase]
  cases hp : s.phase with
  | cRead | cWrite | dToken | dNeed | dWrite => rfl
  | idle | done | error => simp [hp, Phase.engine] at he

end Sys2Proof.Machine
end

section
/-! PROOF. O8 and O56: the waits and refusals of the step, and the engines' independence. -/

namespace Sys2Proof.Machine

/-- Settles O8: one lemma of the step for each clause. -/
theorem waitsAndUnrequestedAnswers : Obligations.WaitsAndUnrequestedAnswers :=
  ⟨fun _ hm => step_of_no_move hm, fun _ _ _ hm ha => step_input_unrequested hm ha,
    fun _ _ _ hm ho => step_output_unrequested hm ho⟩

/-- An answer to a decompress run's transaction keeps the compress engine, unless it ends in ERROR. -/
theorem AnswerStep.compressPart_eq {u t : State} {m : Move} (h : AnswerStep u m (.next t))
    (he : u.phase.engine = some .decompress) (hne : t.phase ≠ .error) : compressPart t = compressPart u := by
  apply compressPart_eq_of_outsideDecompress
  generalize ho : Host.Outcome.next t = o at h
  cases h with
  | fillByte hp | fillEnd hp | groupByte hp => simp [hp, Phase.engine] at he
  | ctrlByte | literal | offsetByte | cleanEnd => cases ho; rfl
  | truncated | readError | writeError => cases ho; exact absurd rfl hne
  | lengthByte => exact copy_keeps (Ran.outcome_keepNone_eq_next.mp ho.symm) hne
  | outputByte => exact putReturn_keeps _ (storeOutput _ u) t (Ran.outcome_keepNone_eq_next.mp ho.symm)

/-- An answer to a compress run's transaction keeps the decompress engine, unless it ends in ERROR. -/
theorem AnswerStep.decompressPart_eq {u t : State} {m : Move} (h : AnswerStep u m (.next t))
    (he : u.phase.engine = some .compress) (hne : t.phase ≠ .error) : decompressPart t = decompressPart u := by
  apply decompressPart_eq_of_outsideCompress
  generalize ho : Host.Outcome.next t = o at h
  cases h with
  | fillByte => exact compressFrom_keeps (storeInput _ u) t (Ran.outcome_keepNone_eq_next.mp ho.symm)
  | fillEnd => exact compressFrom_keeps (setEof u) t (Ran.outcome_keepNone_eq_next.mp ho.symm)
  | groupByte => exact flushOn_keeps _ _ u t (Ran.outcome_keepNone_eq_next.mp ho.symm)
  | truncated | readError | writeError => cases ho; exact absurd rfl hne
  | ctrlByte hp | literal hp | offsetByte hp => rcases hp with hp | hp <;> simp [hp, Phase.engine] at he
  | lengthByte hp | cleanEnd hp | outputByte hp => simp [hp, Phase.engine] at he

/-- What the answers of a run of engine `e` keep, its other steps keep too, where `part` reads nothing of the outside
world's records. -/
theorem step_keeps_of_answers_keep {β : Type} {part : State → β} {e : Engine} {s t : State}
    (hrec : ∀ m rest w, part { recordMove s m rest with hostData := w } = part s)
    (hans : ∀ m rest, (recordMove s m rest).phase.engine = some e → AnswerStep (recordMove s m rest) m (.next t) →
      part t = part (recordMove s m rest))
    (hi : Inv s) (h : step s = .next t) (hr : ∀ f rest, s.moves ≠ .reset f :: rest)
    (he : s.phase.engine = some e) : part t = part s := by
  obtain rfl | ⟨a, rest, w, -, rfl⟩ | ⟨m, rest, -, ha⟩ := step_of_busy_cases (runState_busy_of_engine hi he) h hr
  · rfl
  · exact hrec _ _ w
  · exact (hans m rest (by simpa using he) ha).trans (hrec m rest _)

/-- Settles O56: a step of a run touches the running engine's part of the state only. -/
theorem enginesLeaveEachOtherAlone : Obligations.EnginesLeaveEachOtherAlone := by
  intro s t hi h hne hr
  constructor
  · intro he
    have hpart : compressPart t = compressPart s :=
      step_keeps_of_answers_keep (fun m rest _ => recordMove_compressPart s m rest)
        (fun _ _ he' ha => ha.compressPart_eq he' hne) hi h hr he
    simpa only [compressPart, Prod.mk.injEq] using hpart
  · intro he
    have hpart : decompressPart t = decompressPart s :=
      step_keeps_of_answers_keep (fun m rest _ => recordMove_decompressPart s m rest)
        (fun _ _ he' ha => ha.decompressPart_eq he' hne) hi h hr he
    simpa only [decompressPart, Prod.mk.injEq] using hpart

end Sys2Proof.Machine
end

section
/-! SUPPORT. Where the compress engine's operations come to an end: BuildTable and Search within their loops' bounds
(spec/42_kmp_table.md R151, R153; spec/43_search.md R179), Policy on its precondition (spec/44_match_policy.md R190),
and so the driver's loop (R196). -/

namespace Sys2Proof.Machine

/-- A cell with a value reads as that value. -/
theorem written_of_isSome {v : Option Byte} (h : v.isSome = true) : ∃ b, written v = .ok b := by
  obtain ⟨b, rfl⟩ := Option.isSome_iff_exists.mp h
  exact ⟨b, rfl⟩

/-! ## BuildTable -/

/-- The first `m` entries of `T` are written, and none passes its own index (R150: a border is proper). -/
def EntriesBelow (t : Memory) (m : Nat) : Prop := ∀ k, k < m → ∃ b, t.read k = some b ∧ b.toNat ≤ k

theorem EntriesBelow.write {t : Memory} {m v : Nat} (h : EntriesBelow t m) (hv : v ≤ m) (hm : m < 256) :
    EntriesBelow (t.write m (BitVec.ofNat 8 v)) (m + 1) := by
  intro k hk
  rw [Memory.read_write]
  split
  · refine ⟨_, rfl, ?_⟩
    rw [BitVec.toNat_ofNat]
    omega
  · exact h k (by omega)

/-- The inner loop walks down the borders, so it ends within its bound (R151). -/
theorem borderLoop_ok {S : Nat → Option Byte} {t : Memory} (x : Byte) {q : Nat}
    (hS : ∀ i, i < q → (S i).isSome = true) (ht : EntriesBelow t q) (fuel k : Nat) (hk : k < q)
    (hf : k < fuel) : ∃ k', borderLoop S t x fuel k = .ok k' ∧ k' ≤ k := by
  induction fuel generalizing k with
  | zero => omega
  | succ fuel ih =>
    unfold borderLoop
    split
    · exact ⟨0, rfl, by omega⟩
    · obtain ⟨y, hy⟩ := written_of_isSome (hS k hk)
      obtain ⟨b, hb, hbk⟩ := ht (k - 1) (by omega)
      obtain ⟨k', hk', hle⟩ := ih b.toNat (by omega) (by omega)
      simp only [hy, hb, written_some, bind, Except.bind]
      split
      · exact ⟨k, rfl, le_rfl⟩
      · exact ⟨k', hk', by omega⟩

/-- The outer loop writes one entry after the other (R151). -/
theorem tableLoop_ok {S : Nat → Option Byte} {m : Nat} (hS : ∀ i, i < m → (S i).isSome = true) (hm : m ≤ 256)
    (count q k : Nat) (t : Memory) (hq : q + count = m) (hk : k < q) (ht : EntriesBelow t q) :
    ∃ t', tableLoop S count q k t = .ok t' ∧ EntriesBelow t' m := by
  induction count generalizing q k t with
  | zero => exact ⟨t, rfl, by simpa [← hq] using ht⟩
  | succ count ih =>
    obtain ⟨x, hx⟩ := written_of_isSome (hS q (by omega))
    obtain ⟨k', hk', hle⟩ := borderLoop_ok x (fun i hi => hS i (by omega)) ht (k + 1) k hk (by omega)
    obtain ⟨y, hy⟩ := written_of_isSome (hS k' (by omega))
    simp only [tableLoop, hx, hk', hy, bind, Except.bind]
    have hnext : (if x = y then k' + 1 else k') < q + 1 := by split <;> omega
    exact ih (q + 1) _ _ (by omega) hnext (ht.write (by omega) (by omega))

theorem buildEntries_ok {S : Nat → Option Byte} {m : Nat} (hS : ∀ i, i < m → (S i).isSome = true) (hm : m ≤ 256)
    (t : Memory) : ∃ t', buildEntries S m t = .ok t' ∧ EntriesBelow t' m := by
  unfold buildEntries
  split
  · subst m
    exact ⟨t, rfl, fun k hk => by omega⟩
  · rw [if_neg (by simpa using hm)]
    refine tableLoop_ok hS hm (m - 1) 1 0 _ (by omega) (by omega) ?_
    exact EntriesBelow.write (v := 0) (fun k hk => by omega) le_rfl (by omega)

/-! ## The live cells -/

/-- The lookahead follows the dictionary in `BF` (R23, R177). -/
theorem laByte_eq_textByte (s : State) (k : Nat) : s.laByte k = s.textByte (s.dictSize + k) := by
  have h : s.laTl + BitVec.ofNat 64 k = s.dictTl + BitVec.ofNat 64 (s.dictSize + k) := by
    apply BitVec.eq_of_toNat_eq
    simp only [State.laTl, State.dictSize, ringSize, BitVec.toNat_add, BitVec.toNat_sub, BitVec.toNat_ofNat]
    omega
  rw [State.laByte, State.textByte, h]

theorem LiveWritten.laByte {s : State} (h : LiveWritten s) {k : Nat} (hk : k < s.laSize) :
    (s.laByte k).isSome = true := by
  rw [laByte_eq_textByte]
  exact h _ (by omega)

/-- BuildTable ends, and changes `T` only (R151). -/
theorem buildTable_returns {s : State} (hw : WindowOk s) (hl : LiveWritten s) :
    ∃ t, buildTable s = .returned () { s with t := t } ∧ EntriesBelow t s.laSize := by
  obtain ⟨t, ht, hb⟩ := buildEntries_ok (fun i hi => hl.laByte hi) hw.la_le s.t
  exact ⟨t, by rw [buildTable, ht]; rfl, hb⟩

/-! ## Search -/

/-- R114: offsets from one cursor that are no further apart than the cursors' width are equal exactly as numbers. -/
theorem cursor_offset_inj (v : Cursor) {a b : Nat} (ha : a < 2 ^ 64) (hb : b < 2 ^ 64) :
    v + BitVec.ofNat 64 a = v + BitVec.ofNat 64 b ↔ a = b := by
  rw [BitVec.add_right_inj]
  constructor
  · intro h
    have h' := congrArg BitVec.toNat h
    rwa [BitVec.toNat_ofNat, BitVec.toNat_ofNat, Nat.mod_eq_of_lt ha, Nat.mod_eq_of_lt hb] at h'
  · exact congrArg (BitVec.ofNat 64)

theorem cursor_offset_succ (v : Cursor) (a : Nat) :
    v + BitVec.ofNat 64 a + 1 = v + BitVec.ofNat 64 (a + 1) := by
  rw [BitVec.ofNat_add, BitVec.add_assoc]
  rfl

theorem cursor_offset_sub (v : Cursor) {a : Nat} (ha : a < 2 ^ 64) : (v + BitVec.ofNat 64 a - v).toNat = a := by
  rw [BitVec.add_comm, BitVec.add_sub_cancel, BitVec.toNat_ofNat, Nat.mod_eq_of_lt ha]

/-- The head of the lookahead, as an offset in the lookahead (R110). -/
theorem laHd_eq_laTl_add (s : State) : s.laHd = s.laTl + BitVec.ofNat 64 s.laSize := by
  rw [State.laSize, ringSize, BitVec.ofNat_toNat, BitVec.setWidth_eq, BitVec.add_comm, BitVec.sub_add_cancel]

/-- The head of the dictionary, as an offset in the text `X` (R110). -/
theorem dictHd_eq_dictTl_add (s : State) : s.dictHd = s.dictTl + BitVec.ofNat 64 s.dictSize := by
  rw [State.dictSize, ringSize, BitVec.ofNat_toNat, BitVec.setWidth_eq, BitVec.add_comm, BitVec.sub_add_cancel]

/-- The head of the lookahead, as an offset in the text `X` (R177). -/
theorem laHd_eq_dictTl_add (s : State) : s.laHd = s.dictTl + BitVec.ofNat 64 (s.dictSize + s.laSize) := by
  rw [laHd_eq_laTl_add, State.laTl, dictHd_eq_dictTl_add, BitVec.add_assoc, ← BitVec.ofNat_add]

/-- Each pass of the loop advances `j` or falls back from `p = i - la.tl` to a shorter border, so the loop ends
within the bound of R179. -/
theorem searchLoop_ok {s : State} (hw : WindowOk s) (hl : LiveWritten s) (ht : EntriesBelow s.t s.laSize)
    (fuel J p : Nat) (best : Cursor × Nat) (hJ : J ≤ s.dictSize + s.laSize) (hp : p < s.laSize)
    (hb : best.2 ≤ s.laSize) (hf : 2 * (s.dictSize + s.laSize - J) + p < fuel) :
    ∃ r, searchLoop s.bfAt s.t.read s.dictTl s.laTl s.laHd fuel (s.laTl + BitVec.ofNat 64 p)
      (s.dictTl + BitVec.ofNat 64 J) best = .ok r ∧ r.2 ≤ s.laSize := by
  obtain ⟨hD, hm⟩ := hw
  induction fuel generalizing J p best with
  | zero => omega
  | succ fuel ih =>
    unfold searchLoop
    have hjEnd : s.dictTl + BitVec.ofNat 64 J = s.laHd ↔ J = s.dictSize + s.laSize := by
      rw [laHd_eq_dictTl_add, cursor_offset_inj _ (by omega) (by omega)]
    have hiEnd : s.laTl + BitVec.ofNat 64 (p + 1) = s.laHd ↔ p + 1 = s.laSize := by
      rw [laHd_eq_laTl_add, cursor_offset_inj _ (by omega) (by omega)]
    have hiStart : s.laTl + BitVec.ofNat 64 p = s.laTl ↔ p = 0 := by
      simpa using cursor_offset_inj s.laTl (a := p) (b := 0) (by omega) (by omega)
    simp only [hjEnd, hiEnd, hiStart, cursor_offset_succ]
    split
    · exact ⟨best, rfl, hb⟩
    next hJne =>
    split
    · exact ⟨best, rfl, hb⟩
    obtain ⟨x, hx⟩ := written_of_isSome (hl.laByte hp)
    obtain ⟨y, hy⟩ := written_of_isSome (hl J (by omega))
    rw [State.laByte] at hx
    rw [State.textByte] at hy
    simp only [hx, hy, bind, Except.bind]
    split
    · split
      · refine ⟨_, rfl, ?_⟩
        rw [cursor_offset_sub _ (by omega)]
        omega
      · exact ih (J + 1) (p + 1) best (by omega) (by omega) hb (by omega)
    · split
      · exact ih (J + 1) p best (by omega) hp hb (by omega)
      · obtain ⟨b, hbr, hbp⟩ := ht (p - 1) (by omega)
        have hfall : s.laTl + b.setWidth 64 = s.laTl + BitVec.ofNat 64 b.toNat := by
          rw [BitVec.ofNat_toNat]
        simp only [cursor_offset_sub s.laTl (a := p) (by omega), hbr, written_some, hfall]
        refine ih J b.toNat _ hJ (by omega) ?_ (by omega)
        split
        · exact hp.le
        · exact hb

theorem findMatch_ok {s : State} (hw : WindowOk s) (hl : LiveWritten s) (ht : EntriesBelow s.t s.laSize) :
    ∃ r, findMatch s = .ok r ∧ r.2 ≤ s.laSize := by
  unfold findMatch
  split
  · exact ⟨_, rfl, Nat.zero_le _⟩
  · simpa using searchLoop_ok hw hl ht (2 * (s.dictSize + s.laSize) + 1) 0 0 (0, 0) (by omega) (by omega)
      (Nat.zero_le _) (by omega)

/-- Search ends with a length that fits the lookahead (R170, R179). -/
theorem search_returns {s : State} (hw : WindowOk s) (hl : LiveWritten s) (ht : EntriesBelow s.t s.laSize) :
    ∃ r, search s = .returned r s ∧ r.2 ≤ s.laSize := by
  obtain ⟨r, hr, hle⟩ := findMatch_ok hw hl ht
  exact ⟨r, by rw [search, hr]; rfl, hle⟩

/-! ## Shift -/

/-- The dictionary's oldest bytes that Shift(n) lets go (R134). -/
def forgottenBy (n : Nat) (s : State) : Nat := n - s.dictCapacity

theorem shiftWindow_dictTl {n : Nat} {s t : State} (h : shiftWindow n s = .ok t) :
    t.dictTl = s.dictTl + BitVec.ofNat 64 (forgottenBy n s) := by
  obtain ⟨-, rfl⟩ := shiftWindow_eq_ok.mp h
  unfold forgottenBy
  split
  · rfl
  · rw [Nat.sub_eq_zero_of_le (by omega)]
    simp

/-- The dictionary takes `n` bytes in and lets the forgotten ones go (R135). -/
theorem shiftWindow_dictSize {n : Nat} {s t : State} (h : shiftWindow n s = .ok t) (hw : WindowOk s) :
    t.dictSize + forgottenBy n s = s.dictSize + n := by
  have htl := shiftWindow_dictTl h
  obtain ⟨⟨-, hn⟩, rfl⟩ := shiftWindow_eq_ok.mp h
  obtain ⟨hD, hm⟩ := hw
  have hforget : forgottenBy n s ≤ n := Nat.sub_le _ _
  simp only [State.dictSize, State.laSize, ringSize] at hD hm hn htl ⊢
  rw [htl]
  simp only [BitVec.toNat_sub, BitVec.toNat_add, BitVec.toNat_ofNat] at hD hm hn ⊢
  omega

theorem shiftWindow_textByte {n : Nat} {s t : State} (h : shiftWindow n s = .ok t) (q : Nat) :
    t.textByte q = s.textByte (forgottenBy n s + q) := by
  rw [State.textByte, State.textByte, shiftWindow_dictTl h, BitVec.ofNat_add, BitVec.add_assoc]
  obtain ⟨-, rfl⟩ := shiftWindow_eq_ok.mp h
  rfl

/-- Shift forgets the dictionary's oldest cells only, so the live cells stay live and written (R134, R135). -/
theorem shiftWindow_keeps_window {n : Nat} {s t : State} (h : shiftWindow n s = .ok t) (hw : WindowOk s)
    (hl : LiveWritten s) : WindowOk t ∧ LiveWritten t := by
  have hD := shiftWindow_dictSize h hw
  have hm := shiftWindow_laSize h
  obtain ⟨⟨-, hn⟩, -⟩ := shiftWindow_eq_ok.mp h
  obtain ⟨hDle, hmle⟩ := hw
  have hcap : forgottenBy n s = n - (256 - s.dictSize) := rfl
  refine ⟨⟨by omega, by omega⟩, fun q hq => ?_⟩
  rw [shiftWindow_textByte h]
  exact hl _ (by omega)

/-! ## Policy -/

theorem choosesLiteral_ok {s : State} (hl : LiveWritten s) (len : Nat) (s0 : Byte) :
    ∃ lit, choosesLiteral len s0 s = .ok lit ∧ (lit = false → 2 ≤ len) := by
  unfold choosesLiteral
  split
  · exact ⟨true, rfl, by simp⟩
  next hlen =>
  split
  next hlong =>
    obtain ⟨x, hx⟩ := written_of_isSome (hl.laByte (k := 2) (by omega))
    obtain ⟨y, hy⟩ := written_of_isSome (hl.laByte (k := 3) (by omega))
    obtain ⟨z, hz⟩ := written_of_isSome (hl 2 (by omega))
    simp only [hx, hy, hz, bind, Except.bind]
    exact ⟨_, rfl, fun _ => by omega⟩
  · exact ⟨false, rfl, fun _ => by omega⟩

/-- Policy ends on a search result that fits the lookahead, with a shorter lookahead (R190, R196). -/
theorem policy_returns {s : State} (hw : WindowOk s) (hl : LiveWritten s) (hne : s.laSize ≠ 0) (o : Cursor)
    {len : Nat} (hlen : len ≤ s.laSize) :
    ∃ tok t, policy o len s = .returned tok t ∧ WindowOk t ∧ LiveWritten t ∧ t.laSize < s.laSize := by
  obtain ⟨s0, hs0⟩ := written_of_isSome (hl.laByte (k := 0) (by omega))
  obtain ⟨lit, hlit, h2⟩ := choosesLiteral_ok hl len s0
  have hshift : ∀ n, 1 ≤ n → n ≤ s.laSize →
      ∃ t, shiftWindow n s = .ok t ∧ WindowOk t ∧ LiveWritten t ∧ t.laSize < s.laSize := by
    intro n h1 hn
    have ht := shiftWindow_eq_ok.mpr ⟨⟨h1, hn⟩, rfl⟩
    have hlt := shiftWindow_laSize ht
    obtain ⟨hwt, hlt'⟩ := shiftWindow_keeps_window ht hw hl
    exact ⟨_, ht, hwt, hlt', by omega⟩
  rw [policy, hs0, Ran.ofExcept_ok, hlit, Ran.ofExcept_ok]
  cases lit with
  | true =>
    obtain ⟨t, ht, hwt, hlt, hla⟩ := hshift 1 le_rfl (by omega)
    exact ⟨_, { t with draws := s.draws + 1 }, by rw [if_pos rfl, ht, Ran.ofExcept_ok], ⟨hwt.dict_le, hwt.la_le⟩, hlt, hla⟩
  | false =>
    obtain ⟨t, ht, hwt, hlt, hla⟩ := hshift len (by have := h2 rfl; omega) hlen
    exact ⟨_, _, by rw [if_neg Bool.false_ne_true, ht, Ran.ofExcept_ok], hwt, hlt, hla⟩

/-! ## The driver -/

/-- One token is made from a nonempty lookahead, and shortens it (R196, R271, R273). -/
theorem produceToken_returns {s : State} (hw : WindowOk s) (hl : LiveWritten s) (hne : s.laSize ≠ 0) :
    ∃ tok t, produceToken s = .returned tok t ∧ WindowOk t ∧ LiveWritten t ∧ t.laSize < s.laSize := by
  obtain ⟨tbl, htbl, hent⟩ := buildTable_returns hw hl
  have hw' : WindowOk { s with t := tbl } := ⟨hw.dict_le, hw.la_le⟩
  obtain ⟨r, hr, hle⟩ := search_returns hw' hl hent
  obtain ⟨tok, t, ht⟩ := policy_returns hw' hl hne r.1 hle
  refine ⟨tok, t, ?_, ht.2⟩
  rw [produceToken, htbl, Ran.andThen_returned, hr, Ran.andThen_returned, ht.1]

/-- Fill waits on an `InRead`, or returns without a change (R131). -/
theorem fill_returns_or_waits (s : State) :
    (∃ r, fill s = .returned r s) ∨ fill s = .stops (setPhase .cRead s) := by
  obtain ⟨-, h⟩ | ⟨-, -, h⟩ | ⟨-, -, h⟩ := fill_cases s
  · exact .inl ⟨_, h⟩
  · exact .inl ⟨_, h⟩
  · exact .inr h

/-- The driver comes to a transaction or to the end of the run within its bound (R196). -/
theorem compressLoop_ends {s : State} (hw : WindowOk s) (hl : LiveWritten s) {fuel : Nat} (hf : s.laSize < fuel) :
    ∃ t, (compressLoop fuel s).Ends t := by
  induction fuel generalizing s with
  | zero => omega
  | succ fuel ih =>
    obtain ⟨r, h⟩ | h := fill_returns_or_waits s
    · rw [compressLoop, h, Ran.andThen_returned]
      split
      · obtain ⟨-, h⟩ | ⟨-, h⟩ := finish_cases s <;> rw [h] <;> exact ⟨_, rfl⟩
      next hne =>
        obtain ⟨tok, u, hu, hwu, hlu, hlt⟩ := produceToken_returns hw hl hne
        rw [hu, Ran.andThen_returned]
        obtain ⟨-, h⟩ | ⟨-, h⟩ | ⟨-, -, h⟩ := accept_cases tok u <;> rw [h]
        · exact ih (s := storeTok tok (openGroup u)) ⟨hwu.dict_le, hwu.la_le⟩ hlu (show u.laSize < fuel by omega)
        · exact ⟨_, rfl⟩
        · exact ih (s := storeTok tok u) ⟨hwu.dict_le, hwu.la_le⟩ hlu (show u.laSize < fuel by omega)
    · rw [compressLoop, h]
      exact ⟨_, rfl⟩

theorem compressFrom_ends {s : State} (hw : WindowOk s) (hl : LiveWritten s) : ∃ t, (compressFrom s).Ends t :=
  compressLoop_ends hw hl (Nat.lt_succ_self _)

/-- The byte Fill stores joins the live cells, which stay written (R131). -/
theorem storeInput_keeps_window {s : State} (b : Byte) (hroom : s.laSize < 256) (hw : WindowOk s)
    (hl : LiveWritten s) : WindowOk (storeInput b s) ∧ LiveWritten (storeInput b s) := by
  have hm := storeInput_laSize b hroom
  have hD : (storeInput b s).dictSize = s.dictSize := rfl
  refine ⟨⟨hw.dict_le, by omega⟩, fun q hq => ?_⟩
  show ((s.bf.write (mask s.laHd) b).read (mask (s.dictTl + BitVec.ofNat 64 q))).isSome = true
  rw [Memory.read_write]
  split
  · rfl
  next hcell =>
    have hq' : q ≠ s.dictSize + s.laSize := by
      rintro rfl
      exact hcell (by rw [laHd_eq_dictTl_add])
    exact hl q (by omega)

theorem flushOn_ends {s : State} (k : Nat) (site : FlushSite) (hw : WindowOk s) (hl : LiveWritten s) :
    ∃ t, (flushOn k site s).Ends t := by
  unfold flushOn
  split
  · exact ⟨_, rfl⟩
  · cases site with
    | accept tok => exact compressFrom_ends (s := storeTok tok (openGroup s)) ⟨hw.dict_le, hw.la_le⟩ hl
    | finish => exact ⟨_, rfl⟩

end Sys2Proof.Machine
end

section
/-! SUPPORT. Where the decompress engine's copies come to an end (spec/46_decoder.md R245, R246). -/

namespace Sys2Proof.Machine

theorem copyStep_ends {src : Byte} (left : Nat) {s : State} (h : (s.ring.read src.toNat).isSome = true) :
    ∃ t, (copyStep src left s).Ends t := by
  obtain ⟨b, hb⟩ := written_of_isSome h
  rw [copyStep, hb, Ran.ofExcept_ok]
  exact ⟨_, rfl⟩

/-- `trunc_8(cursor - d)` for the distance `d = off + 1` (R245). -/
theorem cursor_sub_distance (c off : Byte) : c - off - 1 = c - BitVec.ofNat 8 (off.toNat + 1) := by
  rw [BitVec.ofNat_add, BitVec.ofNat_toNat, BitVec.setWidth_eq]
  exact sub_sub c off 1

/-- A reference raises BAD_REFERENCE or reads a byte that was written (R246). -/
theorem copy_ends (off lm1 : Byte) {s : State} (h : RingWritten s) : ∃ t, (copy off lm1 s).Ends t := by
  obtain ⟨-, hc⟩ | ⟨-, b, -, hc⟩ | ⟨hoff, hnone, -⟩ := copy_cases off lm1 s
  · rw [hc]
    exact ⟨_, rfl⟩
  · rw [hc]
    exact ⟨_, rfl⟩
  · have hread := h off.toNat hoff
    rw [← cursor_sub_distance, hnone] at hread
    cases hread

/-- The byte Put stores is the newest of the ring's written cells (R243, R249). -/
theorem storeOutput_keeps_ringWritten (b : Byte) {s : State} (h : RingWritten s) : RingWritten (storeOutput b s) := by
  intro k hk
  rw [storeOutput_filled, fillCount_val] at hk
  rw [storeOutput_ring, storeOutput_cursor, Memory.read_write]
  split
  · rfl
  next hcell =>
    cases k with
    | zero => exact absurd (by simp) hcell
    | succ k =>
      have hidx : s.cursor + 1 - BitVec.ofNat 8 (k + 1 + 1) = s.cursor - BitVec.ofNat 8 (k + 1) := by
        rw [BitVec.ofNat_add (k + 1) 1]
        bv_omega
      rw [hidx]
      exact h k (by omega)

/-- After its byte is stored a copy reads on at its distance, where a byte was written (R245). -/
theorem putReturn_ends (b : Byte) {site : PutSite} {s : State} (h : RingWritten s)
    (hsite : site = .literal ∨ ∃ src left d, site = .copy src left ∧ left < 256 ∧ 1 ≤ d ∧ d ≤ s.filled.val ∧
      src = s.cursor - BitVec.ofNat 8 d) : ∃ t, (putReturn site (storeOutput b s)).Ends t := by
  obtain rfl | ⟨src, _ | left, d, rfl, -, hd, hdf, hsrc⟩ := hsite
  · exact ⟨_, rfl⟩
  · exact ⟨_, rfl⟩
  · have hnext : src + 1 = (storeOutput b s).cursor - BitVec.ofNat 8 (d - 1 + 1) := by
      rw [hsrc, storeOutput_cursor, Nat.sub_add_cancel hd]
      bv_omega
    have hfilled : d - 1 < (storeOutput b s).filled.val := by
      rw [storeOutput_filled, fillCount_val]
      omega
    rw [putReturn_more]
    exact copyStep_ends left (hnext ▸ storeOutput_keeps_ringWritten b h (d - 1) hfilled)

end Sys2Proof.Machine
end

section
/-! PROOF. O54: every answer to the outstanding transaction gives a next state. -/

namespace Sys2Proof.Machine

theorem next_of_ends {r : Ran Unit} (h : ∃ t, r.Ends t) : ∃ t, r.outcome keepNone = .next t :=
  h.imp fun _ => Ran.outcome_keepNone_eq_next.mpr

/-- On a state that meets the invariant, what an answer makes the controller do ends in a state. -/
theorem AnswerStep.goes_on {u : State} {m : Move} {o : Outcome} (h : AnswerStep u m o) (hi : Inv u) :
    ∃ t, o = .next t := by
  cases h with
  | fillByte hp =>
    have hc := hi.compress (by rw [hp]; rfl)
    obtain ⟨hw, hl⟩ := storeInput_keeps_window _ (hc.reading hp).1 hc.window hc.live
    exact next_of_ends (compressFrom_ends hw hl)
  | fillEnd hp =>
    have hc := hi.compress (by rw [hp]; rfl)
    exact next_of_ends (compressFrom_ends (s := setEof u) ⟨hc.window.dict_le, hc.window.la_le⟩ hc.live)
  | groupByte hp =>
    have hc := hi.compress (by rw [hp]; rfl)
    exact next_of_ends (flushOn_ends _ _ hc.window hc.live)
  | lengthByte hp =>
    have hd := hi.decompress (by rw [hp]; rfl)
    exact next_of_ends (copy_ends _ _ hd.ring)
  | outputByte hp =>
    have hd := hi.decompress (by rw [hp]; rfl)
    exact next_of_ends (putReturn_ends _ hd.ring (hd.writing _ _ hp).2)
  | ctrlByte | literal | offsetByte | cleanEnd | truncated | readError | writeError => exact ⟨_, rfl⟩

/-- Settles O54: the step is the answer's, and the recorded answer keeps the invariant. -/
theorem anAnsweredTransactionGoesOn : Obligations.AnAnsweredTransactionGoesOn := by
  rintro s m rest hi hm (⟨ha, a, rfl⟩ | ⟨⟨b, ho⟩, a, rfl⟩)
  · exact (answerStep_input hm ha).goes_on (recordMove_inv _ _ hi)
  · exact (answerStep_output hm ho).goes_on (recordMove_inv _ _ hi)

end Sys2Proof.Machine
end

section
/-! SUPPORT. What the compress driver can do from a state to its next transaction or the end of its run, said once
(spec/47_driver_and_host.md R271; spec/45_encoder.md R210 to R214). -/

namespace Sys2Proof.Machine

/-! ## One token -/

/-- Shift moves the dictionary's two cursors, or its precondition is broken (R134; log 16). -/
theorem shiftWindow_cases (n : Nat) (s : State) :
    (∃ tl hd, shiftWindow n s = .ok { s with dictTl := tl, dictHd := hd }) ∨
    shiftWindow n s = .error .shiftPrecondition := by
  unfold shiftWindow
  split
  · exact .inl ⟨_, _, rfl⟩
  · exact .inr rfl

/-- Policy reads, and then shifts (R190). -/
theorem policy_cases (o : Cursor) (len : Nat) (s : State) :
    (∃ tok tl hd d, policy o len s = .returned tok { s with dictTl := tl, dictHd := hd, draws := d }) ∨
    ∃ f, policy o len s = .fault f := by
  unfold policy
  cases written (s.laByte 0) with
  | error f => exact .inr ⟨f, rfl⟩
  | ok s0 =>
    rw [Ran.ofExcept_ok]
    cases choosesLiteral len s0 s with
    | error f => exact .inr ⟨f, rfl⟩
    | ok lit =>
      rw [Ran.ofExcept_ok]
      cases lit with
      | true =>
        obtain ⟨tl, hd, h⟩ | h := shiftWindow_cases 1 s <;> rw [if_pos rfl, h]
        · exact .inl ⟨_, tl, hd, _, rfl⟩
        · exact .inr ⟨_, rfl⟩
      | false =>
        obtain ⟨tl, hd, h⟩ | h := shiftWindow_cases len s <;> rw [if_neg Bool.false_ne_true, h]
        · exact .inl ⟨_, tl, hd, s.draws, rfl⟩
        · exact .inr ⟨_, rfl⟩

/-- Making a token writes `T` and moves the dictionary's two cursors, and stops at no transaction (R273). -/
theorem produceToken_cases (s : State) :
    (∃ tok t tl hd d, buildEntries s.laByte s.laSize s.t = .ok t ∧
      produceToken s = .returned tok { s with t := t, dictTl := tl, dictHd := hd, draws := d }) ∨
    ∃ f, produceToken s = .fault f := by
  unfold produceToken buildTable
  cases ht : buildEntries s.laByte s.laSize s.t with
  | error f => exact .inr ⟨f, rfl⟩
  | ok t =>
    simp only [Ran.ofExcept_ok, Ran.andThen_returned, search]
    cases findMatch { s with t := t } with
    | error f => exact .inr ⟨f, rfl⟩
    | ok r =>
      obtain ⟨tok, tl, hd, d, h⟩ | ⟨f, h⟩ := policy_cases r.1 r.2 { s with t := t }
      · exact .inl ⟨tok, t, tl, hd, d, rfl, h⟩
      · exact .inr ⟨f, h⟩

/-! ## The driver's loop -/

/-- How the driver's loop goes from `s` to its end in `t`: to an `InRead`, to a group's first `OutWrite`, or to the
end of the run, with any number of tokens made and stored before, each after Fill has returned (R133, R271). -/
inductive DriverEnds : State → State → Prop
  /-- Fill asks for a byte (R131). -/
  | waits {s : State} (room : s.laSize < 256) (more : s.eofSeen = false) : DriverEnds s (setPhase .cRead s)
  /-- Nothing is left to do (R214). -/
  | ends {s : State} (drained : s.laSize = 0) (eof : s.eofSeen = true) (empty : s.n.val = 0) : DriverEnds s (endRun s)
  /-- The last group is offered (R214). -/
  | offersLast {s : State} (drained : s.laSize = 0) (eof : s.eofSeen = true) (pending : 1 ≤ s.n.val) :
      DriverEnds s (setPhase (.cWrite s.c 0 .finish) s)
  /-- A token waits behind the full group's Flush (R210). -/
  | offersFull {s u : State} {tok : TokReg} (filled : 256 ≤ s.laSize ∨ s.eofSeen = true) (left : s.laSize ≠ 0)
      (made : produceToken s = .returned tok u) (full : u.n.val = 8) :
      DriverEnds s (setPhase (.cWrite u.c 0 (.accept tok)) u)
  /-- A token opens the run's first group (R210). -/
  | opens {s u t : State} {tok : TokReg} (filled : 256 ≤ s.laSize ∨ s.eofSeen = true) (left : s.laSize ≠ 0)
      (made : produceToken s = .returned tok u) (first : u.n.val = 0)
      (rest : DriverEnds (storeTok tok (openGroup u)) t) : DriverEnds s t
  /-- A token joins the group (R210). -/
  | stores {s u t : State} {tok : TokReg} (filled : 256 ≤ s.laSize ∨ s.eofSeen = true) (left : s.laSize ≠ 0)
      (made : produceToken s = .returned tok u) (pending : 1 ≤ u.n.val) (room : u.n.val < 8)
      (rest : DriverEnds (storeTok tok u) t) : DriverEnds s t

theorem driverEnds_of_compressLoop {fuel : Nat} {s t : State} (h : (compressLoop fuel s).Ends t) :
    DriverEnds s t := by
  induction fuel generalizing s with
  | zero => exact absurd h (Ran.not_ends_fault _ _)
  | succ fuel ih =>
    rw [compressLoop] at h
    have hpass : ∀ r, fill s = .returned r s → 256 ≤ s.laSize ∨ s.eofSeen = true → DriverEnds s t := by
      intro r hr hfilled
      rw [hr, Ran.andThen_returned] at h
      split at h
      next hla =>
        have heof : s.eofSeen = true := hfilled.resolve_left (by omega)
        obtain ⟨hn, hf⟩ | ⟨hn, hf⟩ := finish_cases s <;> rw [hf] at h <;> cases h
        · exact .ends hla heof hn
        · exact .offersLast hla heof hn
      next hla =>
        obtain ⟨tok, tb, tl, hd, d, -, hm⟩ | ⟨f, hm⟩ := produceToken_cases s
        · have hmade := hm
          rw [hm, Ran.andThen_returned] at h
          generalize { s with t := tb, dictTl := tl, dictHd := hd, draws := d } = u at h hmade
          obtain ⟨hn, ha⟩ | ⟨hn, ha⟩ | ⟨h1, hn, ha⟩ := accept_cases tok u <;> rw [ha] at h
          · exact .opens hfilled hla hmade hn (ih h)
          · cases h
            exact .offersFull hfilled hla hmade hn
          · exact .stores hfilled hla hmade h1 hn (ih h)
        · rw [hm] at h
          exact absurd h (Ran.not_ends_fault _ _)
    obtain ⟨hla, hr⟩ | ⟨-, heof, hr⟩ | ⟨hla, heof, hr⟩ := fill_cases s
    · exact hpass _ hr (.inl hla)
    · exact hpass _ hr (.inr heof)
    · rw [hr] at h
      cases h
      exact .waits hla heof

theorem driverEnds_of_compressFrom {s t : State} (h : (compressFrom s).Ends t) : DriverEnds s t :=
  driverEnds_of_compressLoop h

/-- The byte after byte `k` of a group is offered, or Flush returns to its caller (R210, R213, R214). -/
theorem flushOn_ends_cases {k : Nat} {site : FlushSite} {s t : State} (h : (flushOn k site s).Ends t) :
    (∃ b, s.flushBytes[k + 1]? = some b ∧ t = setPhase (.cWrite b (k + 1) site) s) ∨
    (∃ tok, site = .accept tok ∧ DriverEnds (storeTok tok (openGroup s)) t) ∨
    (site = .finish ∧ t = endRun s) := by
  unfold flushOn at h
  split at h
  next b hb => exact .inl ⟨b, hb, h.symm⟩
  next =>
    cases site with
    | accept tok => exact .inr (.inl ⟨tok, rfl, driverEnds_of_compressFrom h⟩)
    | finish => exact .inr (.inr ⟨rfl, h.symm⟩)

/-! ## What the driver leaves unchanged -/

/-- What only Fill's answers write: `BF`, `la.hd` and `eof_seen` (R131). -/
def inputSide (s : State) : Memory × Cursor × Bool := (s.bf, s.laHd, s.eofSeen)

theorem produceToken_inputSide {s u : State} {tok : TokReg} (h : produceToken s = .returned tok u) :
    inputSide u = inputSide s := by
  obtain ⟨_, _, _, _, _, -, hm⟩ | ⟨f, hm⟩ := produceToken_cases s
  · rw [hm] at h
    cases h
    rfl
  · rw [hm] at h
    cases h

theorem DriverEnds.inputSide_eq {s t : State} (h : DriverEnds s t) : inputSide t = inputSide s := by
  induction h with
  | waits | ends | offersLast => rfl
  | offersFull _ _ made => exact (produceToken_inputSide made :)
  | opens _ _ made _ _ ih | stores _ _ made _ _ _ ih =>
    have hmade := produceToken_inputSide made
    exact ih.trans hmade

end Sys2Proof.Machine
end

section
/-! SUPPORT. What one step can be, for every state: no move, the answer to the outstanding transaction, a host access,
or a reset (spec/47_driver_and_host.md R270, R283). -/

namespace Sys2Proof.Machine

/-- A word written to CTRL is one of the three commands (R91). -/
theorem decodeCtrlWrite_cases (w : Word) :
    ∃ r, decodeCtrlWrite w = .cmdCompress r ∨ decodeCtrlWrite w = .cmdDecompress r ∨
      ∃ m, decodeCtrlWrite w = .cmdSetMode r m := by
  refine ⟨w.extractLsb' 2 30, ?_⟩
  unfold decodeCtrlWrite
  split
  · split
    · exact .inr (.inl rfl)
    · exact .inl rfl
  · exact .inr (.inr ⟨_, rfl⟩)

/-- What a host access does to `u`, the state with the access recorded, on its way to `t` (R276 to R281). -/
inductive HostStep (u : State) : State → Prop
  /-- A write of STATUS, or of CTRL while BUSY (R277, R279). -/
  | ignored : HostStep u u
  /-- A read (R278, R279). -/
  | reads (w : Word) : HostStep u { u with hostData := some w }
  /-- MODE is written, outside a run (R276). -/
  | setsMode (ready : u.runState ≠ .busy) (m : BitVec 1) : HostStep u { u with mode := engineOf m }
  /-- A compress run starts (R281). -/
  | startsCompress {t : State} (ready : u.runState ≠ .busy) (run : DriverEnds (startRun .compress u) t) : HostStep u t
  /-- A decompress run starts (R281). -/
  | startsDecompress (ready : u.runState ≠ .busy) : HostStep u (setPhase .dToken (startRun .decompress u))

theorem hostStep_decodeCtrlWrite {w : Word} {u t : State} (h : exec (decodeCtrlWrite w) u = .next t) :
    HostStep u t := by
  by_cases hb : u.runState = .busy
  · cases (exec_decodeCtrlWrite_of_busy w hb).symm.trans h
    exact .ignored
  · obtain ⟨r, hw | hw | ⟨m, hw⟩⟩ := decodeCtrlWrite_cases w <;> rw [hw] at h
    · have hrun : (compressFrom (startRun .compress u)).outcome keepNone = .next t := (if_neg hb).symm.trans h
      exact .startsCompress hb (driverEnds_of_compressFrom (Ran.outcome_keepNone_eq_next.mp hrun))
    · cases (if_neg hb : exec (.cmdDecompress r) u = _).symm.trans h
      exact .startsDecompress hb
    · cases (if_neg hb : exec (.cmdSetMode r m) u = _).symm.trans h
      exact .setsMode hb m

theorem hostStep_of_step {s t : State} {a : HostAccess} {rest : List Move} (hm : s.moves = .host a :: rest)
    (h : step s = .next t) : HostStep (recordMove s (.host a) rest) t := by
  rw [step_of_move hm, runMove, fetch] at h
  obtain ⟨i, hf, hi⟩ | hf | ⟨r, hf⟩ := fetchHost_cases a <;> rw [hf] at h
  · obtain rfl | rfl | ⟨w, rfl⟩ := hi
    · cases h
      exact .reads _
    · cases h
      exact .reads _
    · exact hostStep_decodeCtrlWrite h
  · cases h
    exact .ignored
  · cases h

/-- The four kinds of step that give a next state (R270, R283, R340). -/
theorem step_next_cases {s t : State} (h : step s = .next t) :
    t = s ∨ ∃ m rest, s.moves = m :: rest ∧
      (AnswerStep (recordMove s m rest) m (.next t) ∨ HostStep (recordMove s m rest) t ∨
        ∃ f, t = hardReset (settleInflight f (recordMove s m rest))) := by
  rcases hm : s.moves with _ | ⟨a | a | a | f, rest⟩
  · rw [step_of_no_move hm] at h
    cases h
    exact .inl rfl
  · cases ha : s.phase.awaitsInput with
    | true => exact .inr ⟨_, rest, rfl, .inl (h ▸ answerStep_input hm ha)⟩
    | false => rw [step_input_unrequested hm ha] at h; cases h
  · cases ho : s.phase.offers with
    | some b => exact .inr ⟨_, rest, rfl, .inl (h ▸ answerStep_output hm ho)⟩
    | none => rw [step_output_unrequested hm ho] at h; cases h
  · exact .inr ⟨_, rest, rfl, .inr (.inl (hostStep_of_step hm h))⟩
  · rw [step_of_move hm] at h
    cases h
    exact .inr ⟨_, rest, rfl, .inr (.inr ⟨f, rfl⟩)⟩

end Sys2Proof.Machine
end

section
/-! SUPPORT. BuildTable keeps `T` canonical and inside its size (spec/20_memory.md R60, R63). -/

namespace Sys2Proof.Machine

theorem tableLoop_keeps_canonical {S : Nat → Option Byte} {count q k : Nat} {t t' : Memory}
    (h : tableLoop S count q k t = .ok t') (hq : q + count ≤ 256) (ht : t.wf = true ∧ t.within 256 = true) :
    t'.wf = true ∧ t'.within 256 = true := by
  induction count generalizing q k t with
  | zero =>
    cases h
    exact ht
  | succ count ih =>
    rw [tableLoop] at h
    cases hx : written (S q) with
    | error f => simp [hx, bind, Except.bind] at h
    | ok x =>
    cases hk : borderLoop S t x (k + 1) k with
    | error f => simp [hx, hk, bind, Except.bind] at h
    | ok k' =>
    cases hy : written (S k') with
    | error f => simp [hx, hk, hy, bind, Except.bind] at h
    | ok y =>
      simp only [hx, hk, hy, bind, Except.bind] at h
      exact ih h (by omega) ⟨Memory.wf_write _ _ _ ht.1, Memory.within_write _ _ _ _ ht.2 (by omega)⟩

theorem buildEntries_keeps_canonical {S : Nat → Option Byte} {m : Nat} {t t' : Memory}
    (h : buildEntries S m t = .ok t') (ht : t.wf = true ∧ t.within 256 = true) :
    t'.wf = true ∧ t'.within 256 = true := by
  unfold buildEntries at h
  split_ifs at h with h0 hm
  · cases h
    exact ht
  · have hm' : m ≤ 256 := Nat.le_of_not_gt hm
    exact tableLoop_keeps_canonical h (by omega)
      ⟨Memory.wf_write _ _ _ ht.1, Memory.within_write _ _ _ _ ht.2 (by omega)⟩

end Sys2Proof.Machine
end

section
/-! SUPPORT. The invariant at the states between a run's transactions, where the program point is not yet the next one,
and the ways from there to a state that meets it (spec/10_state.md R24, R39 to R41; spec/47_driver_and_host.md R284). -/

namespace Sys2Proof.Machine

/-! ## The invariant outside a run -/

/-- The outside world's records and the draw counter are no part of the invariant (log 6, log 19). -/
theorem inv_withRecords {s : State} (h : Inv s) (ms : List Move) (i o : List Byte) (w : Option Word) (d : Nat) :
    Inv { s with moves := ms, inTaken := i, outTaken := o, hostData := w, draws := d } where
  memories := { h.memories with }
  status := { h.status with }
  compress e := have c := h.compress e; { c with window := { c.window with } }
  decompress e := { h.decompress e with }

theorem inv_reset : Inv State.reset where
  memories := ⟨rfl, rfl, rfl, rfl, rfl, rfl⟩
  status := ⟨rfl, by rintro e ⟨⟩, by decide, by decide, by decide⟩
  compress := by rintro ⟨⟩
  decompress := by rintro ⟨⟩

theorem hardReset_inv (s : State) : Inv (hardReset s) :=
  inv_withRecords inv_reset s.moves s.inTaken s.outTaken s.hostData s.draws

theorem raiseError_inv (err : RunError) (e : Errno) (s : State) : Inv (raiseError err e s) where
  memories := ⟨rfl, rfl, rfl, rfl, rfl, rfl⟩
  status :=
    { state_of_phase := rfl
      engine_of_mode := by rintro e ⟨⟩
      class_iff := by simp
      errno_set := fun _ => recordedErrno_ne_zero err e
      errno_clear := fun h => absurd rfl h }
  compress := by rintro ⟨⟩
  decompress := by rintro ⟨⟩

/-- Outside a run MODE is no part of the invariant (R276). -/
theorem inv_withMode {s : State} (h : Inv s) (ready : s.runState ≠ .busy) (m : Engine) :
    Inv { s with mode := m } where
  memories := { h.memories with }
  status := { h.status with engine_of_mode := fun _ he => absurd (runState_busy_of_engine h he) ready }
  compress e := absurd (runState_busy_of_engine h e) ready
  decompress e := absurd (runState_busy_of_engine h e) ready

/-! ## A run in progress -/

/-- What every state of a run of `e` has, whatever its program point is (R39 to R41, R60). -/
structure InRun (e : Engine) (s : State) : Prop where
  memories : MemoriesOk s
  busy : s.runState = .busy
  mode : s.mode = e
  noClass : s.errClass = none
  noErrno : s.errno = 0

/-- The compress engine between two transactions (R24, R63, R212). -/
structure DriverOk (s : State) : Prop extends InRun .compress s where
  window : WindowOk s
  live : LiveWritten s
  control : s.c = controlByte s.groupToks

/-- The decompress engine between two transactions (R246). -/
structure DeframerOk (s : State) : Prop extends InRun .decompress s where
  ring : RingWritten s

theorem Inv.inRun {e : Engine} {s : State} (h : Inv s) (he : s.phase.engine = some e) : InRun e s := by
  have hb := runState_busy_of_engine h he
  have hne : s.runState ≠ .error := by rw [hb]; decide
  refine ⟨h.memories, hb, h.status.engine_of_mode e he, ?_, h.status.errno_clear hne⟩
  simpa using mt h.status.class_iff.mp hne

theorem Inv.driverOk {s : State} (h : Inv s) (he : s.phase.engine = some .compress) : DriverOk s :=
  have c := h.compress he
  { h.inRun he with window := c.window, live := c.live, control := c.control }

theorem Inv.deframerOk {s : State} (h : Inv s) (he : s.phase.engine = some .decompress) : DeframerOk s :=
  { h.inRun he with ring := (h.decompress he).ring }

theorem startRun_inRun (e : Engine) {s : State} (h : MemoriesOk s) : InRun e (startRun e s) :=
  ⟨{ h with }, rfl, rfl, rfl, rfl⟩

/-- A program point of the run's engine goes with BUSY (R39, R284). -/
theorem InRun.statusOk {e : Engine} {s : State} (h : InRun e s) {p : Phase} (hp : p.engine = some e) :
    StatusOk (setPhase p s) where
  state_of_phase := by
    rw [setPhase_runState, h.busy, setPhase_phase]
    cases p with
    | cRead | cWrite | dToken | dNeed | dWrite => rfl
    | idle | done | error => cases hp
  engine_of_mode e' he' := h.mode.trans (Option.some.inj (hp.symm.trans he'))
  class_iff := by simp [h.noClass, h.busy]
  errno_set he := by simp [h.busy] at he
  errno_clear _ := h.noErrno

theorem InRun.endRun_inv {e : Engine} {s : State} (h : InRun e s) : Inv (endRun s) where
  memories := { h.memories with }
  status :=
    { state_of_phase := rfl
      engine_of_mode := by rintro e ⟨⟩
      class_iff := by simp [h.noClass]
      errno_set := by simp
      errno_clear := fun _ => h.noErrno }
  compress := by rintro ⟨⟩
  decompress := by rintro ⟨⟩

/-! ## The compress engine's ways on -/

/-- R210, R214: the caller of Flush is Accept with a full group, or Finish with nothing left. -/
def FlushAllowed (s : State) (site : FlushSite) : Prop :=
  (∃ tok, site = .accept tok ∧ s.n.val = 8) ∨ (site = .finish ∧ s.laSize = 0 ∧ s.eofSeen = true)

theorem DriverOk.inv_setPhase {s : State} (h : DriverOk s) {p : Phase} (hp : p.engine = some .compress)
    (reading : p = .cRead → s.laSize < 256 ∧ s.eofSeen = false)
    (writing : ∀ b k site, p = .cWrite b k site →
      1 ≤ s.n.val ∧ s.flushBytes[k]? = some b ∧ FlushAllowed s site) : Inv (setPhase p s) where
  memories := { h.memories with }
  status := h.toInRun.statusOk hp
  compress _ :=
    { window := { h.window with }, live := h.live, control := h.control, reading := reading, writing := writing }
  decompress he := absurd (hp.symm.trans he) (by decide)

theorem DriverOk.inv_reading {s : State} (h : DriverOk s) (room : s.laSize < 256) (more : s.eofSeen = false) :
    Inv (setPhase .cRead s) :=
  h.inv_setPhase rfl (fun _ => ⟨room, more⟩) (by rintro b k site ⟨⟩)

theorem DriverOk.inv_writing {s : State} (h : DriverOk s) {b : Byte} {k : Nat} {site : FlushSite}
    (hn : 1 ≤ s.n.val) (hb : s.flushBytes[k]? = some b) (hsite : FlushAllowed s site) :
    Inv (setPhase (.cWrite b k site) s) :=
  h.inv_setPhase rfl (by rintro ⟨⟩) (by rintro _ _ _ ⟨⟩; exact ⟨hn, hb, hsite⟩)

theorem DriverOk.afterStoreTok {s : State} (h : DriverOk s) (tok : TokReg) (hn : s.n.val < 8) :
    DriverOk (storeTok tok s) :=
  { h with
    memories := { h.memories with }
    window := { h.window with }
    control := storeTok_control tok s hn h.control }

theorem DriverOk.afterOpenGroup {s : State} (h : DriverOk s) : DriverOk (openGroup s) :=
  { h with
    memories := { h.memories with }
    window := { h.window with }
    control := by rw [groupToks_openGroup]; rfl }

theorem DriverOk.afterStoreInput {s : State} (h : DriverOk s) (b : Byte) (room : s.laSize < 256) :
    DriverOk (storeInput b s) :=
  have hbf := storeInput_keeps_bf b s ⟨h.memories.bf_wf, h.memories.bf_within⟩
  have hwl := storeInput_keeps_window b room h.window h.live
  { h with
    memories := { h.memories with bf_wf := hbf.1, bf_within := hbf.2 }
    window := hwl.1
    live := hwl.2 }

theorem DriverOk.afterSetEof {s : State} (h : DriverOk s) : DriverOk (setEof s) :=
  { h with memories := { h.memories with }, window := { h.window with } }

theorem DriverOk.afterToken {s u : State} {tok : TokReg} (h : DriverOk s) (left : s.laSize ≠ 0)
    (made : produceToken s = .returned tok u) : DriverOk u := by
  obtain ⟨tok', u', hu', hwindow, hlive, -⟩ := produceToken_returns h.window h.live left
  cases hu'.symm.trans made
  obtain ⟨_, t, _, _, _, ht, hm⟩ | ⟨f, hm⟩ := produceToken_cases s
  · cases hm.symm.trans made
    obtain ⟨hwf, hin⟩ := buildEntries_keeps_canonical ht ⟨h.memories.t_wf, h.memories.t_within⟩
    exact { h with
      memories := { h.memories with t_wf := hwf, t_within := hin }
      window := hwindow
      live := hlive }
  · cases hm.symm.trans made

/-- Wherever the driver comes to, the invariant holds (R271). -/
theorem DriverEnds.inv {s t : State} (ends : DriverEnds s t) (h : DriverOk s) : Inv t := by
  induction ends with
  | waits room more => exact h.inv_reading room more
  | ends => exact h.toInRun.endRun_inv
  | offersLast drained eof pending => exact h.inv_writing pending rfl (.inr ⟨rfl, drained, eof⟩)
  | offersFull _ left made full =>
    exact (h.afterToken left made).inv_writing (by omega) rfl (.inl ⟨_, rfl, full⟩)
  | opens _ left made _ _ ih => exact ih ((h.afterToken left made).afterOpenGroup.afterStoreTok _ (by simp))
  | stores _ left made _ room _ ih => exact ih ((h.afterToken left made).afterStoreTok _ room)

@[simp] theorem startRun_dictSize (e : Engine) (s : State) : (startRun e s).dictSize = 0 := by
  simp [State.dictSize, ringSize]
@[simp] theorem startRun_laSize (e : Engine) (s : State) : (startRun e s).laSize = 0 := by
  simp [State.laSize, ringSize]

/-- A run starts with an empty window and an empty group (R281). -/
theorem startRun_driverOk {s : State} (h : MemoriesOk s) : DriverOk (startRun .compress s) :=
  { startRun_inRun .compress h with
    window := ⟨by simp, by simp⟩
    live := by simp [LiveWritten]
    control := rfl }

/-! ## The decompress engine's ways on -/

/-- R240, R248: a first byte is needed at slot 0, and a length byte inside a token. -/
def NeedAllowed (s : State) (site : NeedSite) : Prop :=
  (site = .firstByte ∧ s.slot.val = 0) ∨
    ∃ off, site = .lengthByte off ∧ s.slot.val < 8 ∧ kindBit s.ctl s.slot.val = true

/-- R245: Put is called for a literal, or for a step of a copy at a distance within `filled`. -/
def PutAllowed (s : State) (site : PutSite) : Prop :=
  site = .literal ∨ ∃ src left d, site = .copy src left ∧ left < 256 ∧ 1 ≤ d ∧ d ≤ s.filled.val ∧
    src = s.cursor - BitVec.ofNat 8 d

theorem DeframerOk.inv_setPhase {s : State} (h : DeframerOk s) {p : Phase} (hp : p.engine = some .decompress)
    (needing : ∀ site, p = .dNeed site → NeedAllowed s site)
    (writing : ∀ b site, p = .dWrite b site → s.slot.val < 8 ∧ PutAllowed s site) : Inv (setPhase p s) where
  memories := { h.memories with }
  status := h.toInRun.statusOk hp
  compress he := absurd (hp.symm.trans he) (by decide)
  decompress _ := { ring := h.ring, needing := needing, writing := writing }

theorem DeframerOk.inv_token {s : State} (h : DeframerOk s) : Inv (setPhase .dToken s) :=
  h.inv_setPhase rfl (by rintro site ⟨⟩) (by rintro b site ⟨⟩)

theorem DeframerOk.inv_needing {s : State} (h : DeframerOk s) {site : NeedSite}
    (hsite : NeedAllowed s site) : Inv (setPhase (.dNeed site) s) :=
  h.inv_setPhase rfl (by rintro _ ⟨⟩; exact hsite) (by rintro b site ⟨⟩)

theorem DeframerOk.inv_putting {s : State} (h : DeframerOk s) {b : Byte} {site : PutSite} (hs : s.slot.val < 8)
    (hsite : PutAllowed s site) : Inv (setPhase (.dWrite b site) s) :=
  h.inv_setPhase rfl (by rintro site ⟨⟩) (by rintro _ _ ⟨⟩; exact ⟨hs, hsite⟩)

theorem DeframerOk.afterOpenCtl {s : State} (h : DeframerOk s) (x : Byte) : DeframerOk (openCtl x s) :=
  { h with memories := { h.memories with } }

theorem DeframerOk.afterStoreOutput {s : State} (h : DeframerOk s) (b : Byte) : DeframerOk (storeOutput b s) :=
  have hring := storeOutput_keeps_ring b s ⟨h.memories.ring_wf, h.memories.ring_within⟩
  { h with
    memories := { h.memories with ring_wf := hring.1, ring_within := hring.2 }
    ring := storeOutput_keeps_ringWritten b h.ring }

theorem DeframerOk.inv_endToken {s : State} (h : DeframerOk s) : Inv (endToken s) :=
  have h' : DeframerOk { s with slot := nextSlot s.slot } := { h with memories := { h.memories with } }
  h'.inv_token

/-- A reference ends in ERROR or offers its first byte, at a distance within `filled` (R245, R246). -/
theorem DeframerOk.copy_inv {s t : State} (h : DeframerOk s) {off lm1 : Byte} (hs : s.slot.val < 8)
    (ht : (copy off lm1 s).Ends t) : Inv t := by
  obtain ⟨-, hc⟩ | ⟨hoff, b, -, hc⟩ | ⟨-, -, hc⟩ := copy_cases off lm1 s <;> rw [hc] at ht
  · cases ht
    exact raiseError_inv _ _ s
  · cases ht
    have hsrc := cursor_sub_distance s.cursor off
    exact h.inv_putting hs (.inr ⟨_, _, _, rfl, lm1.isLt, Nat.le_add_left 1 _, hoff, hsrc⟩)
  · exact absurd ht (Ran.not_ends_fault _ t)

theorem copyStep_ends_eq {src : Byte} {left : Nat} {s t : State} (h : (copyStep src left s).Ends t) :
    ∃ b, t = setPhase (.dWrite b (.copy src left)) s := by
  unfold copyStep at h
  cases hb : written (s.ring.read src.toNat) with
  | error f =>
    rw [hb] at h
    exact absurd h (Ran.not_ends_fault _ t)
  | ok b =>
    rw [hb] at h
    exact ⟨b, h.symm⟩

/-- After its byte is stored the token ends, or the copy goes on at its distance (R240, R245). -/
theorem DeframerOk.putReturn_inv {s t : State} (h : DeframerOk s) (b : Byte) {site : PutSite} (hs : s.slot.val < 8)
    (hsite : PutAllowed s site) (ht : (putReturn site (storeOutput b s)).Ends t) : Inv t := by
  obtain rfl | ⟨src, _ | left, d, rfl, hleft, hd, hdf, hsrc⟩ := hsite
  · cases ht
    exact (h.afterStoreOutput b).inv_endToken
  · cases ht
    exact (h.afterStoreOutput b).inv_endToken
  · obtain ⟨b', rfl⟩ := copyStep_ends_eq ht
    have hfilled : d ≤ (storeOutput b s).filled.val := by
      rw [storeOutput_filled, fillCount_val]
      have := s.filled.isLt
      omega
    have hnext : src + 1 = (storeOutput b s).cursor - BitVec.ofNat 8 d := by
      rw [hsrc, storeOutput_cursor]
      bv_omega
    exact (h.afterStoreOutput b).inv_putting hs (.inr ⟨_, _, d, rfl, by omega, hd, hfilled, hnext⟩)

/-- A run starts with `filled` 0 (R281). -/
theorem startRun_deframerOk {s : State} (h : MemoriesOk s) : DeframerOk (startRun .decompress s) :=
  { startRun_inRun .decompress h with ring := fun k hk => absurd hk (Nat.not_lt_zero k) }

end Sys2Proof.Machine
end

section
/-! PROOF. O18, O51, O52 and O30: the reset column, the invariant at reset and along every step, and `End` in Fill. -/

namespace Sys2Proof.Machine

/-- Settles O18: the reset state lists its registers. -/
theorem resetStateHoldsTheResetColumn : Obligations.ResetStateHoldsTheResetColumn :=
  ⟨rfl, rfl, rfl, rfl, rfl, rfl, rfl, rfl, rfl, rfl, rfl, rfl, rfl, rfl, rfl⟩

/-- Settles O51: the memories are empty, and no run is in progress. -/
theorem invHoldsAtReset : Obligations.InvHoldsAtReset := inv_reset

/-- An answer to the outstanding transaction keeps the invariant. -/
theorem AnswerStep.inv {u t : State} {m : Move} (h : AnswerStep u m (.next t)) (hi : Inv u) : Inv t := by
  generalize ho : Host.Outcome.next t = o at h
  have hends : ∀ {r : Ran Unit}, Host.Outcome.next t = r.outcome keepNone → r.Ends t :=
    fun hr => Ran.outcome_keepNone_eq_next.mp hr.symm
  have hfirst : u.phase = .dToken ∨ u.phase = .dNeed .firstByte → DeframerOk u := by
    rintro (hp | hp) <;> exact hi.deframerOk (by rw [hp]; rfl)
  have hslot : u.slot.val ≠ 8 → u.slot.val < 8 := fun hs => by
    have := u.slot.isLt
    omega
  cases h with
  | fillByte hp =>
    have hc : u.phase.engine = some .compress := by rw [hp]; rfl
    have hroom := ((hi.compress hc).reading hp).1
    exact (driverEnds_of_compressFrom (hends ho)).inv ((hi.driverOk hc).afterStoreInput _ hroom)
  | fillEnd hp =>
    exact (driverEnds_of_compressFrom (hends ho)).inv (hi.driverOk (by rw [hp]; rfl)).afterSetEof
  | ctrlByte hp =>
    cases ho
    exact ((hfirst hp).afterOpenCtl _).inv_needing (.inl ⟨rfl, rfl⟩)
  | literal hp hs =>
    cases ho
    exact (hfirst hp).inv_putting (hslot hs) (.inl rfl)
  | offsetByte hp hs hk =>
    cases ho
    exact (hfirst hp).inv_needing (.inr ⟨_, rfl, hslot hs, hk⟩)
  | lengthByte hp =>
    have hd : u.phase.engine = some .decompress := by rw [hp]; rfl
    obtain ⟨hsite, -⟩ | ⟨-, -, hs, -⟩ := (hi.decompress hd).needing _ hp
    · cases hsite
    · exact (hi.deframerOk hd).copy_inv hs (hends ho)
  | cleanEnd hp =>
    cases ho
    exact (hi.inRun (e := .decompress) (by rw [hp]; rfl)).endRun_inv
  | groupByte hp =>
    have hc : u.phase.engine = some .compress := by rw [hp]; rfl
    have hdriver := hi.driverOk hc
    obtain ⟨hn, -, hsite⟩ := (hi.compress hc).writing _ _ _ hp
    obtain ⟨b, hb, rfl⟩ | ⟨tok, -, hrest⟩ | ⟨-, rfl⟩ := flushOn_ends_cases (hends ho)
    · exact hdriver.inv_writing hn hb hsite
    · exact hrest.inv (hdriver.afterOpenGroup.afterStoreTok tok (by simp))
    · exact hdriver.toInRun.endRun_inv
  | outputByte hp =>
    have hd : u.phase.engine = some .decompress := by rw [hp]; rfl
    obtain ⟨hs, hsite⟩ := (hi.decompress hd).writing _ _ hp
    exact (hi.deframerOk hd).putReturn_inv _ hs hsite (hends ho)
  | truncated | readError | writeError =>
    cases ho
    exact raiseError_inv _ _ u

/-- A host access keeps the invariant. -/
theorem HostStep.inv {u t : State} (h : HostStep u t) (hi : Inv u) : Inv t := by
  cases h with
  | ignored => exact hi
  | reads w => exact inv_withRecords hi u.moves u.inTaken u.outTaken (some w) u.draws
  | setsMode ready m => exact inv_withMode hi ready _
  | startsCompress _ run => exact run.inv (startRun_driverOk hi.memories)
  | startsDecompress => exact (startRun_deframerOk hi.memories).inv_token

/-- Settles O52: by the kinds of step, each of which keeps the invariant. -/
theorem stepKeepsInv : Obligations.StepKeepsInv := by
  intro s t hi h
  obtain rfl | ⟨m, rest, -, ha | hh | ⟨f, rfl⟩⟩ := step_next_cases h
  · exact hi
  · exact ha.inv (recordMove_inv _ _ hi)
  · exact hh.inv (recordMove_inv _ _ hi)
  · exact hardReset_inv _

/-- After `End` a compress run that meets the invariant asks for no byte (R349). -/
theorem Inv.awaitsNoInput {t : State} (h : Inv t) (hmode : t.mode = .compress) (heof : t.eofSeen = true) :
    t.phase.awaitsInput = false := by
  have hne : t.phase.engine ≠ some .decompress := fun he => by
    have := hmode.symm.trans (h.status.engine_of_mode _ he)
    cases this
  cases hp : t.phase with
  | idle | cWrite | dWrite | done | error => rfl
  | cRead =>
    have hmore := ((h.compress (by rw [hp]; rfl)).reading hp).2
    cases heof.symm.trans hmore
  | dToken | dNeed =>
    rw [hp] at hne
    exact absurd rfl hne

/-- Settles O30: the driver goes on from the state with `eof_seen` 1 and comes to an end that meets the invariant. -/
theorem endInFillIsRemembered : Obligations.EndInFillIsRemembered := by
  intro s rest hi hp hm
  have hrun : step s = exec .compressRun { s with moves := rest, eofSeen := true } := by
    have hf : fetch s (.input .endOfInput) = .resume .fillEnd := by simp only [fetch, fetchInput, hp]
    rw [step_of_move hm, runMove, hf]
    rfl
  have hstart : DriverOk { s with moves := rest, eofSeen := true } :=
    ((recordMove_inv (.input .endOfInput) rest hi).driverOk (by rw [recordMove_phase, hp]; rfl)).afterSetEof
  refine ⟨hrun, ?_⟩
  obtain ⟨t, ht⟩ := compressFrom_ends hstart.window hstart.live
  have hnext : step s = .next t := hrun.trans (Ran.outcome_keepNone_eq_next.mpr ht)
  have hside := (driverEnds_of_compressFrom ht).inputSide_eq
  have hframe := compressFrom_keeps _ t ht
  simp only [inputSide, Prod.mk.injEq] at hside
  obtain ⟨hbf, hhd, heof⟩ := hside
  have hmode : t.mode = .compress := (congrArg State.mode hframe).trans hstart.mode
  have htaken : t.inTaken = s.inTaken := (congrArg State.inTaken hframe :)
  exact ⟨t, hnext, heof, hbf, hhd, htaken, (stepKeepsInv s t hi hnext).awaitsNoInput hmode heof⟩

end Sys2Proof.Machine
end

section
/-! PROOF. O53: no step from a state that meets the invariant is a fault of the model. -/

namespace Sys2Proof.Machine

/-- A word written to CTRL is always answered; a compress run it starts comes to a transaction (R276, R277, R281). -/
theorem exec_decodeCtrlWrite_goes_on (w : Word) {u : State} (h : MemoriesOk u) :
    ∃ t, exec (decodeCtrlWrite w) u = .next t := by
  by_cases hb : u.runState = .busy
  · exact ⟨u, exec_decodeCtrlWrite_of_busy w hb⟩
  · obtain ⟨r, hw | hw | ⟨m, hw⟩⟩ := decodeCtrlWrite_cases w <;> rw [hw]
    · have hstart := startRun_driverOk h
      obtain ⟨t, ht⟩ := next_of_ends (compressFrom_ends hstart.window hstart.live)
      exact ⟨t, (if_neg hb).trans ht⟩
    · exact ⟨_, if_neg hb⟩
    · exact ⟨_, if_neg hb⟩

/-- A host access is answered or refused (R276 to R280). -/
theorem step_host_next_or_refused {s : State} {a : HostAccess} {rest : List Move} (hi : Inv s)
    (hm : s.moves = .host a :: rest) : (∃ t, step s = .next t) ∨ ∃ r, step s = .refused r := by
  rw [step_of_move hm, runMove, fetch]
  obtain ⟨i, hf, rfl | rfl | ⟨w, rfl⟩⟩ | hf | ⟨r, hf⟩ := fetchHost_cases a <;> rw [hf]
  · exact .inl ⟨_, rfl⟩
  · exact .inl ⟨_, rfl⟩
  · exact .inl (exec_decodeCtrlWrite_goes_on w (recordMove_inv _ _ hi).memories)
  · exact .inl ⟨_, rfl⟩
  · exact .inr ⟨r, rfl⟩

/-- On a state that meets the invariant every move has a next state or is refused (R270, R283). -/
theorem step_next_or_refused {s : State} (hi : Inv s) : (∃ t, step s = .next t) ∨ ∃ r, step s = .refused r := by
  rcases hm : s.moves with _ | ⟨a | a | a | f, rest⟩
  · exact .inl ⟨s, step_of_no_move hm⟩
  · cases ha : s.phase.awaitsInput with
    | true => exact .inl ((answerStep_input hm ha).goes_on (recordMove_inv _ _ hi))
    | false => exact .inr ⟨_, step_input_unrequested hm ha⟩
  · cases ho : s.phase.offers with
    | some b => exact .inl ((answerStep_output hm ho).goes_on (recordMove_inv _ _ hi))
    | none => exact .inr ⟨_, step_output_unrequested hm ho⟩
  · exact step_host_next_or_refused hi hm
  · exact .inl ⟨_, step_of_move hm⟩

/-- Settles O53: the step's outcome is one of the other two. -/
theorem noFaultIsReached : Obligations.NoFaultIsReached := by
  intro s f hi hf
  obtain ⟨t, h⟩ | ⟨r, h⟩ := step_next_or_refused hi
  · cases hf.symm.trans h
  · cases hf.symm.trans h

end Sys2Proof.Machine
end

section
/-! PROOF. O9 and O55: the streams of a run, which only the record of the move writes (spec/20_memory.md R67, R71,
R72). -/

namespace Sys2Proof.Machine

/-- The moves to come and the run's two streams (log 1, log 19). -/
def records (s : State) : List Move × List Byte × List Byte := (s.moves, s.inTaken, s.outTaken)

theorem records_eq_of_outsideCompress {s t : State} (h : outsideCompress t = outsideCompress s) :
    records t = records s :=
  show records (outsideCompress t) = records (outsideCompress s) from congrArg records h

theorem records_eq_of_outsideDecompress {s t : State} (h : outsideDecompress t = outsideDecompress s) :
    records t = records s :=
  show records (outsideDecompress t) = records (outsideDecompress s) from congrArg records h

/-- A copy, BAD_REFERENCE included, moves no byte of a stream before it is answered (R245, R246). -/
theorem copy_keeps_records (off lm1 : Byte) (s : State) : (copy off lm1 s).Keeps records s := by
  obtain ⟨-, h⟩ | ⟨-, b, -, h⟩ | ⟨-, -, h⟩ := copy_cases off lm1 s
  · exact h ▸ Ran.keeps_stops rfl
  · exact h ▸ Ran.keeps_stops rfl
  · exact h ▸ Ran.keeps_fault _

/-- What the controller does with an answer leaves the streams as the answer's record left them. -/
theorem AnswerStep.records_eq {u t : State} {m : Move} (h : AnswerStep u m (.next t)) : records t = records u := by
  generalize ho : Host.Outcome.next t = o at h
  have hends : ∀ {r : Ran Unit}, Host.Outcome.next t = r.outcome keepNone → r.Ends t :=
    fun hr => Ran.outcome_keepNone_eq_next.mp hr.symm
  cases h with
  | fillByte => exact records_eq_of_outsideCompress (compressFrom_keeps (storeInput _ u) t (hends ho))
  | fillEnd => exact records_eq_of_outsideCompress (compressFrom_keeps (setEof u) t (hends ho))
  | groupByte => exact records_eq_of_outsideCompress (flushOn_keeps _ _ u t (hends ho))
  | outputByte => exact records_eq_of_outsideDecompress (putReturn_keeps _ (storeOutput _ u) t (hends ho))
  | lengthByte => exact copy_keeps_records _ _ u t (hends ho)
  | ctrlByte | literal | offsetByte | cleanEnd | truncated | readError | writeError => cases ho; rfl

/-- The three ways of a run's step with a move pending: it serves the host, takes the answer to the outstanding
transaction, or is reset (R270, R283, R340). -/
theorem step_of_busy_move_cases {s t : State} {m : Move} {rest : List Move} (hb : s.runState = .busy)
    (hm : s.moves = m :: rest) (h : step s = .next t) :
    (∃ w, t = { recordMove s m rest with hostData := w }) ∨ AnswerStep (recordMove s m rest) m (.next t) ∨
    ∃ f, m = .reset f ∧ t = hardReset (settleInflight f (recordMove s m rest)) := by
  cases m with
  | input a =>
    cases ha : s.phase.awaitsInput with
    | true => exact .inr (.inl (h ▸ answerStep_input hm ha))
    | false => cases (step_input_unrequested hm ha).symm.trans h
  | output a =>
    cases ho : s.phase.offers with
    | some b => exact .inr (.inl (h ▸ answerStep_output hm ho))
    | none => cases (step_output_unrequested hm ho).symm.trans h
  | host a => exact .inl (step_host_of_busy hm hb h)
  | reset f =>
    cases (step_of_move hm).symm.trans h
    exact .inr (.inr ⟨f, rfl, rfl⟩)

/-- Settles O9: the streams after the step are those the record of its move leaves, one case for each move. -/
theorem streamsGrowByTheAnsweredByte : Obligations.StreamsGrowByTheAnsweredByte := by
  intro s t m rest hb hm hr h
  have hrec : records t = records (recordMove s m rest) := by
    obtain ⟨w, rfl⟩ | ha | ⟨f, rfl, -⟩ := step_of_busy_move_cases hb hm h
    · rfl
    · exact ha.records_eq
    · exact absurd rfl (hr f)
  simp only [records, Prod.mk.injEq] at hrec
  obtain ⟨hmoves, hin, hout⟩ := hrec
  rw [hmoves, hin, hout]
  rcases m with (b | _ | e) | (_ | e) | a | f <;> simp [recordMove]

/-- An outstanding `OutWrite` belongs to a run (R284). -/
theorem engine_of_offers {p : Phase} {b : Byte} (h : p.offers = some b) : ∃ e, p.engine = some e := by
  cases p with
  | cWrite | dWrite => exact ⟨_, rfl⟩
  | idle | cRead | dToken | dNeed | done | error => cases h

/-- One transaction is outstanding at a time (R284). -/
theorem awaitsNoInput_of_offers {p : Phase} {b : Byte} (h : p.offers = some b) : p.awaitsInput = false := by
  cases p with
  | idle | cWrite | dWrite | done | error => rfl
  | cRead | dToken | dNeed => cases h

/-- The answer that ends a run at an `OutWrite` cleanly is `Ok` (R303). -/
theorem AnswerStep.eq_ok_of_done {u t : State} {m : Move} {b : Byte} (h : AnswerStep u m (.next t))
    (ho : u.phase.offers = some b) (hd : t.runState = .done) : m = .output .ok := by
  generalize hn : Host.Outcome.next t = o at h
  cases h with
  | groupByte | outputByte => rfl
  | writeError => cases hn; cases hd
  | ctrlByte hp | literal hp | offsetByte hp => rcases hp with hp | hp <;> simp [hp, Phase.offers] at ho
  | fillByte hp | fillEnd hp | lengthByte hp | cleanEnd hp | truncated hp => simp [hp, Phase.offers] at ho
  | readError ha => cases (awaitsNoInput_of_offers ho).symm.trans ha

/-- Settles O55: neither a host access nor a reset gives DONE, and the answer that does is `Ok`. -/
theorem doneOnlyAfterTheLastWrite : Obligations.DoneOnlyAfterTheLastWrite := by
  intro s t b hi ho h hd
  obtain ⟨e, he⟩ := engine_of_offers ho
  have hb := runState_busy_of_engine hi he
  rcases hm : s.moves with _ | ⟨m, rest⟩
  · cases (step_of_no_move hm).symm.trans h
    cases hb.symm.trans hd
  · obtain ⟨w, rfl⟩ | ha | ⟨f, rfl, rfl⟩ := step_of_busy_move_cases hb hm h
    · have hbusy := recordMove_runState s m rest
      cases hb.symm.trans (hbusy.symm.trans hd)
    · obtain rfl := ha.eq_ok_of_done (by simpa using ho) hd
      obtain ⟨hmoves, -, hout⟩ := streamsGrowByTheAnsweredByte s t _ rest hb hm (by simp) h
      exact ⟨rest, rfl, by simpa [ho] using hout, hmoves⟩
    · cases hd

end Sys2Proof.Machine
end

section
/-! SUPPORT. The decoders and the encoder, each read off the other (spec/30_encoding.md R82 to R94). -/

namespace Sys2Proof

/-- A stream's bytes begin with a wire form exactly when that form stands here and its encoding is in front. -/
theorem decodeWire_eq_ok {p : WirePos} {bs rest : List Byte} {i : Instr} :
    decodeWire p bs = .ok (i, rest) ↔
      ∃ form, encode i = .wire form ∧ i.standsAt p = true ∧ bs = form ++ rest := by
  constructor
  · intro h
    rcases bs with _ | ⟨x, xs⟩
    · cases h
    · by_cases hb : p.atBoundary = true
      · simp only [decodeWire, hb, if_true] at h
        cases h
        exact ⟨[x], rfl, hb, rfl⟩
      · cases hk : kindBit p.ctl p.slot.val with
        | false =>
          simp only [decodeWire, hb, hk, if_false, Bool.false_eq_true] at h
          cases h
          exact ⟨[x], rfl, by simp [Instr.standsAt, hb, hk], rfl⟩
        | true =>
          rcases xs with _ | ⟨y, ys⟩ <;> simp only [decodeWire, hb, hk, if_false, if_true, Bool.false_eq_true] at h
          · cases h
          · cases h
            exact ⟨[x, y], rfl, by simp [Instr.standsAt, hb, hk], rfl⟩
  · rintro ⟨form, he, hs, rfl⟩
    cases i with
    | ctrlByte | lit | bref => cases he; simp_all [Instr.standsAt, decodeWire]
    | _ => cases he

/-- A wire form has a byte at least. -/
theorem encode_wire_ne_nil {i : Instr} {form : List Byte} (h : encode i = .wire form) : form ≠ [] := by
  rintro rfl
  cases i <;> cases h

/-- A word written to CTRL is put together from its three fields (R91). -/
theorem ctrlWriteWord_extract (w : Word) :
    ctrlWriteWord (w.extractLsb' 2 30) (w.extractLsb' 1 1) (w.extractLsb' 0 1) = w := by
  ext k hk
  obtain rfl | rfl | hk2 : k = 0 ∨ k = 1 ∨ 2 ≤ k := by omega
  · simp [ctrlWriteWord]
  · simp [ctrlWriteWord]
  · have h0 : ¬ k < 1 := by omega
    have h1 : ¬ k - 1 < 1 := by omega
    have h2 : ¬ k < 2 := by omega
    have hback : 2 + (k - 2) = k := by omega
    have hlt : k - 2 < 30 := by omega
    simp [ctrlWriteWord, h0, h1, h2, hback, hlt, BitVec.getLsbD_eq_getElem hk]

theorem encode_decodeCtrlWrite (w : Word) : encode (decodeCtrlWrite w) = .access (ctrlWrite w) := by
  have hw := ctrlWriteWord_extract w
  have hbit : ∀ b : BitVec 1, b ≠ 1 → b = 0 := by decide
  unfold decodeCtrlWrite
  split_ifs with hstart hmode
  · rw [hstart, hmode] at hw
    rw [encode, hw]
  · rw [hstart, hbit _ hmode] at hw
    rw [encode, hw]
  · rw [hbit _ hstart] at hw
    rw [encode, hw]

theorem standsAt_decodeCtrlWrite (p : WirePos) (w : Word) : (decodeCtrlWrite w).standsAt p = true := by
  obtain ⟨r, h | h | ⟨m, h⟩⟩ := Machine.decodeCtrlWrite_cases w <;> rw [h] <;> rfl

/-- What a host access decodes to has that access as its encoding, and stands everywhere (R66, R94). -/
theorem encode_of_decodeHost {a : HostAccess} {i : Instr} (h : decodeHost a = .ok i) (p : WirePos) :
    encode i = .access a ∧ i.standsAt p = true := by
  obtain ⟨offset, size, dir⟩ := a
  simp only [decodeHost] at h
  split_ifs at h with hsize hctrl hstatus
  · obtain rfl : size = 4 := by simpa using hsize
    subst hctrl
    cases dir with
    | read => cases h; exact ⟨rfl, rfl⟩
    | write w => cases h; exact ⟨encode_decodeCtrlWrite w, standsAt_decodeCtrlWrite p w⟩
  · obtain rfl : size = 4 := by simpa using hsize
    subst hstatus
    cases dir <;> cases h
    exact ⟨rfl, rfl⟩

/-- What the decoder gives is encoded as what it read, and stands where it was read. -/
theorem encode_of_decode {p : WirePos} {e : Encoded} {i : Instr} (h : decode p e = .ok i) :
    encode i = e ∧ i.standsAt p = true := by
  cases e with
  | unencoded => cases h
  | access a => exact encode_of_decodeHost h p
  | wire bs =>
    simp only [decode] at h
    split at h
    · cases h
    next j rest hd =>
      obtain ⟨form, he, hs, rfl⟩ := decodeWire_eq_ok.mp hd
      split_ifs at h with hrest
      cases h
      rw [List.isEmpty_iff.mp hrest, List.append_nil]
      exact ⟨he, hs⟩

open Laws.DecodeEncode in
/-- Every instruction is decoded from its encoding wherever it stands. -/
theorem decode_encode : ∀ i : Instr, Laws.DecodeEncode.Statement i
  | .ctrlByte k => ctrlByte k
  | .lit v => lit v
  | .bref off lm1 => bref off lm1
  | .cmdCompress r => cmdCompress r
  | .cmdDecompress r => cmdDecompress r
  | .cmdSetMode r m => cmdSetMode r m
  | .rdCtrl => rdCtrl
  | .rdStatus => rdStatus
  | .winInit => winInit
  | .fill => fill
  | .shift n => shift n
  | .buildTable => buildTable
  | .search => search
  | .policy o len => policy o len
  | .accept tok => accept tok
  | .flush site => flush site
  | .finish => finish
  | .emit b site => emit b site
  | .compressRun => compressRun
  | .decRun => decRun
  | .put b site => put b site
  | .copy off lm1 => copy off lm1
  | .needByte site => needByte site
  | .decompressRun => decompressRun
  | .abort err e => abort err e
  | .reset inflight => reset inflight

end Sys2Proof
end

section
/-! SUPPORT. A framed stream is read back group by group (spec/30_encoding.md R80 to R83, R88; spec/45_encoder.md R216,
R217). -/

namespace Sys2Proof

/-! ## A group's control byte -/

/-- Setting a slot's kind flag sets no other slot's (R82, R212). -/
theorem kindBit_setKindBit (c : Byte) {s k : Nat} (hs : s < 8) (hk : k < 8) :
    kindBit (setKindBit c s) k = (kindBit c k || decide (s = k)) := by
  have hbit : (1#8 <<< (7 - s)).getLsbD (7 - k) = decide (s = k) := by
    rw [← BitVec.twoPow_eq, BitVec.getLsbD_twoPow, ← Bool.decide_and, decide_eq_decide]
    omega
  rw [kindBit, setKindBit, BitVec.getLsbD_or, hbit, kindBit]

theorem kindBit_zero (k : Nat) : kindBit 0 k = false := by simp [kindBit]

/-- The bits of a control byte under construction: those it had, and those of the tokens still to come. -/
theorem kindBit_controlByteFrom {ts : List TokReg} {c : Byte} {s k : Nat} (hs : s + ts.length ≤ 8) (hk : k < 8) :
    kindBit (controlByteFrom c s ts) k = (kindBit c k || (decide (s ≤ k) && ts[k - s]?.any (·.kind))) := by
  induction ts generalizing c s with
  | nil => simp [controlByteFrom]
  | cons t ts ih =>
    rw [List.length_cons] at hs
    have hbit : kindBit (if t.kind then setKindBit c s else c) k = (kindBit c k || (decide (s = k) && t.kind)) := by
      cases t.kind <;> simp [kindBit_setKindBit c (by omega : s < 8) hk]
    rw [controlByteFrom, ih (by omega), hbit, Bool.or_assoc]
    congr 1
    obtain hlt | rfl | hgt := lt_trichotomy s k
    · have hsucc : k - s = (k - (s + 1)) + 1 := by omega
      simp [hsucc, hlt, hlt.le, hlt.ne]
    · simp
    · have h1 : ¬ s + 1 ≤ k := by omega
      simp [h1, hgt.ne', hgt.not_ge]

/-- Slot `k`'s bit of a group's control byte is the kind of the group's token `k` (R82, R212). -/
theorem kindBit_controlByte {ts : List TokReg} {k : Nat} {t : TokReg} (hts : ts.length ≤ 8) (h : ts[k]? = some t) :
    kindBit (controlByte ts) k = t.kind := by
  have hk := (List.getElem?_eq_some_iff.mp h).1
  rw [controlByte, kindBit_controlByteFrom (by omega) (by omega), kindBit_zero]
  simp [h]

/-! ## Whole streams -/

/-- The bytes `bs` from position `p` are exactly the forms `is`, under any bound that the bytes do not pass. -/
def ReadsAs (p : WirePos) (bs : List Byte) (is : List Instr) : Prop :=
  ∀ fuel, bs.length ≤ fuel → decodeStreamFuel fuel p bs = .ok is

theorem readsAs_nil (p : WirePos) : ReadsAs p [] [] := by
  intro fuel _
  cases fuel <;> rfl

/-- A form in front, which is no control byte that ends the stream (R81). -/
theorem readsAs_cons {p : WirePos} {i : Instr} {form rest : List Byte} {is : List Instr}
    (he : encode i = .wire form) (hs : i.standsAt p = true) (hne : p.atBoundary = true → rest ≠ [])
    (h : ReadsAs (p.after i) rest is) : ReadsAs p (form ++ rest) (i :: is) := by
  intro fuel hfuel
  have hform := List.length_pos_iff.mpr (encode_wire_ne_nil he)
  rw [List.length_append] at hfuel
  obtain ⟨fuel, rfl⟩ : ∃ n, fuel = n + 1 := ⟨fuel - 1, by omega⟩
  have hd : decodeWire p (form ++ rest) = .ok (i, rest) := decodeWire_eq_ok.mpr ⟨form, he, hs, rfl⟩
  have hend : (p.atBoundary && rest.isEmpty) = false := by
    simpa using hne
  simp [decodeStreamFuel, encode_wire_ne_nil he, hd, hend, h fuel (by omega)]

theorem TokReg.encode_instr (t : TokReg) : encode t.instr = .wire t.wire := by
  unfold TokReg.instr TokReg.wire
  split <;> rfl

/-- The deframer's place before token `k` of a group under the control byte `ctl` (R240, R241). -/
def WirePos.beforeTok (k : Nat) (ctl : Byte) : WirePos := ⟨Fin.ofNat 9 k, ctl⟩

theorem beforeTok_slot {k : Nat} {ctl : Byte} (hk : k < 8) : (WirePos.beforeTok k ctl).slot.val = k :=
  Nat.mod_eq_of_lt (by omega)

theorem atBoundary_beforeTok {k : Nat} (ctl : Byte) (hk : k < 8) : (WirePos.beforeTok k ctl).atBoundary = false := by
  simp only [WirePos.atBoundary, beforeTok_slot hk]
  exact decide_eq_false hk.ne

theorem standsAt_instr {t : TokReg} {k : Nat} {ctl : Byte} (hk : k < 8) (ht : kindBit ctl k = t.kind) :
    t.instr.standsAt (.beforeTok k ctl) = true := by
  have hkind : kindBit (WirePos.beforeTok k ctl).ctl (WirePos.beforeTok k ctl).slot.val = t.kind := by
    rw [beforeTok_slot hk]
    exact ht
  cases h : t.kind <;> simp [TokReg.instr, Instr.standsAt, atBoundary_beforeTok ctl hk, hkind, h]

theorem after_instr (t : TokReg) (k : Nat) (ctl : Byte) :
    (WirePos.beforeTok k ctl).after t.instr = .beforeTok (k + 1) ctl := by
  have hslot : nextSlot (Fin.ofNat 9 k) = Fin.ofNat 9 (k + 1) := Fin.ext (Nat.mod_add_mod k 9 1)
  unfold TokReg.instr
  split <;> exact congrArg (WirePos.mk · ctl) hslot

/-- The tokens of a group from token `k` on are read one by one under a control byte that gives their kinds. -/
theorem readsAs_tokens {ts : List TokReg} {k : Nat} {ctl : Byte} {rest : List Byte} {is : List Instr}
    (hlen : k + ts.length ≤ 8) (hkind : ∀ j t, ts[j]? = some t → kindBit ctl (k + j) = t.kind)
    (h : ReadsAs (.beforeTok (k + ts.length) ctl) rest is) :
    ReadsAs (.beforeTok k ctl) (ts.flatMap TokReg.wire ++ rest) (ts.map TokReg.instr ++ is) := by
  induction ts generalizing k with
  | nil => exact h
  | cons t ts ih =>
    rw [List.length_cons] at hlen h
    have hk : k < 8 := by omega
    have htail : ReadsAs (.beforeTok (k + 1) ctl) (ts.flatMap TokReg.wire ++ rest) (ts.map TokReg.instr ++ is) :=
      ih (by omega) (fun j u hu => by rw [Nat.add_right_comm]; exact hkind (j + 1) u hu)
        (by rwa [Nat.add_right_comm])
    rw [List.flatMap_cons, List.append_assoc]
    refine readsAs_cons t.encode_instr (standsAt_instr hk (hkind 0 t rfl)) ?_ ?_
    · simp [atBoundary_beforeTok ctl hk]
    · rwa [after_instr]

/-- A group is its control byte and its tokens, and leaves the deframer after its last token (R81). -/
theorem readsAs_group {ts : List TokReg} {p : WirePos} {rest : List Byte} {is : List Instr} (hp : p.atBoundary = true)
    (hne : ts ≠ []) (hlen : ts.length ≤ 8) (h : ReadsAs (.beforeTok ts.length (controlByte ts)) rest is) :
    ReadsAs p (groupBytes ts ++ rest) (groupInstrs ts ++ is) := by
  have htoks : ReadsAs (.beforeTok 0 (controlByte ts)) (ts.flatMap TokReg.wire ++ rest) (ts.map TokReg.instr ++ is) :=
    readsAs_tokens (by omega) (fun j t ht => by rw [Nat.zero_add]; exact kindBit_controlByte hlen ht)
      (by rwa [Nat.zero_add])
  refine readsAs_cons (form := [controlByte ts]) rfl hp (fun _ => ?_) htoks
  obtain ⟨t, ts', rfl⟩ := List.exists_cons_of_ne_nil hne
  have hw := encode_wire_ne_nil t.encode_instr
  simp [hw]

/-- Every group but the last is full, so each group starts at a boundary (R216). -/
theorem readsAs_groups {fuel : Nat} {ts : List TokReg} {p : WirePos} (hfuel : ts.length ≤ fuel)
    (hp : p.atBoundary = true) :
    ReadsAs p ((groupsFuel fuel ts).flatMap groupBytes) ((groupsFuel fuel ts).flatMap groupInstrs) := by
  induction fuel generalizing ts p with
  | zero => exact readsAs_nil p
  | succ fuel ih =>
    by_cases hts : ts = []
    · subst hts
      exact readsAs_nil p
    · have hpos := List.length_pos_iff.mpr hts
      simp only [groupsFuel, List.isEmpty_iff, hts, if_false, List.flatMap_cons]
      refine readsAs_group hp (by simpa using hts) (List.length_take_le 8 ts) ?_
      by_cases hlast : ts.drop 8 = []
      · have hnone : groupsFuel fuel [] = [] := by cases fuel <;> rfl
        rw [hlast, hnone]
        exact readsAs_nil _
      · have hmore : 8 < ts.length := by simpa using hlast
        refine ih (by rw [List.length_drop]; omega) ?_
        rw [List.length_take_of_le hmore.le]
        rfl

end Sys2Proof
end

section
/-! PROOF. O1, O2, O3, O6 and O7: the decoders, the encoder, and the step that runs what was decoded. -/

namespace Sys2Proof.Machine

/-- Settles O2: what is decoded is encoded as what was read, and an encoding is read back where it stands. -/
theorem decodeAndEncodeAgree : Obligations.DecodeAndEncodeAgree := by
  intro p e i
  constructor
  · exact encode_of_decode
  · rintro ⟨rfl, hs⟩
    exact decode_encode i p hs

/-- Settles O3: group by group from the start of the stream, which is a boundary. -/
theorem framedStreamDecodesBack : Obligations.FramedStreamDecodesBack :=
  fun _ => readsAs_groups le_rfl rfl _ le_rfl

/-- Settles O1: closed words, each evaluated. -/
theorem writtenOutWordsDecode : Obligations.WrittenOutWordsDecode := by
  unfold Obligations.WrittenOutWordsDecode
  decide

/-- A byte that is a whole form runs that form (R94). -/
theorem fetchWire_of_decodeWire {s : State} {b : Byte} {i : Instr} {rest : List Byte}
    (hd : decodeWire s.wirePos [b] = .ok (i, rest)) : fetchWire s b = .instr i := by
  simp [fetchWire, hd]

/-- The byte that completes a form makes the controller run that form (R94, R240, R248). -/
theorem fetchInput_of_decodeWire {s : State} {b : Byte} {i : Instr}
    (hp : s.phase = .dToken ∨ ∃ site, s.phase = .dNeed site)
    (hd : decodeWire s.wirePos (s.phase.heldBytes ++ [b]) = .ok (i, [])) :
    fetchInput s (.byte b) = .instr i := by
  obtain hp | ⟨_ | off, hp⟩ := hp <;> rw [hp] at hd <;> simp only [fetchInput, hp]
  · exact fetchWire_of_decodeWire hd
  · exact fetchWire_of_decodeWire hd
  · obtain ⟨form, he, -, hform⟩ := decodeWire_eq_ok.mp hd
    have hpair : encode i = .wire [off, b] := by rw [he, ← form.append_nil, ← hform]; rfl
    cases i with
    | bref => cases hpair; rfl
    | _ => cases hpair

/-- Settles O6: one fact about `fetch` for each kind of move. -/
theorem stepRunsTheDecodedInstruction : Obligations.StepRunsTheDecodedInstruction := by
  refine ⟨?_, ?_, ?_⟩
  · intro s b rest i hm hp hd
    rw [step_of_move hm, runMove, fetch, fetchInput_of_decodeWire hp hd]
    rfl
  · intro s a rest i hm hd
    rw [step_of_move hm, runMove, fetch, fetchHost, hd]
    rfl
  · intro s f rest hm
    rw [step_of_move hm]
    rfl

/-- Settles O7: of the ways of a first byte, the slot and its control bit leave the reference's. -/
theorem firstReferenceByteAsksForTheSecond : Obligations.FirstReferenceByteAsksForTheSecond := by
  intro s b rest hm hp hs hk
  have ha := answerStep_firstByte hm hp
  generalize step s = o at ha
  cases ha with
  | offsetByte => rfl
  | ctrlByte _ h8 => exact absurd h8 (Nat.ne_of_lt hs)
  | literal _ _ hlit => cases hk.symm.trans hlit
  | fillByte h | lengthByte h => rcases hp with hp | hp <;> cases hp.symm.trans h

end Sys2Proof.Machine
end

section
/-! PROOF. O26: the ring helpers as arithmetic on the cursors' values. -/

namespace Sys2Proof.Machine

/-- R110: the wrapping subtraction of cursors, on their values. -/
theorem ringSize_eq (tl hd : Cursor) : ringSize tl hd = (hd.toNat + 2 ^ 64 - tl.toNat) % 2 ^ 64 := by
  rw [ringSize, BitVec.toNat_sub, Nat.add_comm hd.toNat, Nat.sub_add_comm tl.isLt.le]

/-- R113: the run is cut at the end of `BF`. -/
theorem ringRun_eq (hd : Cursor) : ringRun hd = 512 - mask hd := rfl

/-- R113: a masked cursor stands before the end of `BF`, so at least one cell is left. -/
theorem ringRun_pos (hd : Cursor) : 1 ≤ ringRun hd :=
  Nat.sub_pos_of_lt (mask_lt hd)

theorem ringRun_le (hd : Cursor) : ringRun hd ≤ 512 :=
  Nat.sub_le 512 (mask hd)

/-- Settles O26: each helper by its equation; the run's range is that of the mask. -/
theorem ringHelpersFollowTheirFormulas : Obligations.RingHelpersFollowTheirFormulas := by
  intro tl hd
  have hrun : ringRun hd = 512 - hd.toNat % 512 := by rw [ringRun_eq, mask_eq]
  exact ⟨ringSize_eq tl hd, rfl, mask_eq hd, hrun, ringRun_pos hd, ringRun_le hd⟩

end Sys2Proof.Machine
end

section
/-! SUPPORT. Fill and Shift by their equations, and where Shift leaves the window's bytes (spec/41_window.md R131 to
R136). -/

namespace Sys2Proof.Machine

/-! ## Fill -/

theorem fill_of_full {s : State} (full : 256 ≤ s.laSize) : fill s = .returned .ok s :=
  if_neg full.not_gt

theorem fill_of_eof {s : State} (room : s.laSize < 256) (eof : s.eofSeen = true) : fill s = .returned .eof s :=
  (if_pos room).trans (if_pos eof)

theorem fill_of_room {s : State} (room : s.laSize < 256) (more : s.eofSeen = false) :
    fill s = .stops (setPhase .cRead s) :=
  (if_pos room).trans (if_neg (ne_true_of_eq_false more))

/-- A driver that waits on Fill's `InRead` with room for its byte goes on waiting (R131, R271). -/
theorem exec_compressRun_of_reading {s : State} (hp : s.phase = .cRead) (room : s.laSize < 256)
    (more : s.eofSeen = false) : exec .compressRun s = .next s := by
  have hwait : setPhase .cRead s = s := hp ▸ rfl
  rw [exec, execCompressRun, compressFrom, compressLoop, fill_of_room room more, hwait]
  rfl

/-- `Byte(b)` to Fill's `InRead` is stored, and the step is the driver's loop from there (R131, R271). -/
theorem step_fillByte {s : State} {b : Byte} {rest : List Move} (hp : s.phase = .cRead)
    (hm : s.moves = .input (.byte b) :: rest) :
    step s = exec .compressRun (storeInput b (recordMove s (.input (.byte b)) rest)) := by
  have hf : fetch s (.input (.byte b)) = .resume (.fillByte b) := by simp only [fetch, fetchInput, hp]
  rw [step_of_move hm, runMove, hf]
  rfl

/-- The driver comes to a transaction or to the end of its run, and on its way writes nothing that Fill's answers
write and nothing outside its engine (R271). -/
theorem DriverOk.exec_compressRun {s : State} (h : DriverOk s) :
    ∃ t, exec .compressRun s = .next t ∧ inputSide t = inputSide s ∧ outsideCompress t = outsideCompress s := by
  obtain ⟨t, ht⟩ := compressFrom_ends h.window h.live
  exact ⟨t, Ran.outcome_keepNone_eq_next.mpr ht, (driverEnds_of_compressFrom ht).inputSide_eq,
    compressFrom_keeps s t ht⟩

/-- R136: the cell of `la.hd` comes less than a buffer after every live cell, and after it. -/
theorem mask_live_ne_mask_laHd {s : State} (hw : WindowOk s) (room : s.laSize < 256) {q : Nat}
    (hq : q < s.dictSize + s.laSize) : mask (s.dictTl + BitVec.ofNat 64 q) ≠ mask s.laHd := by
  have hend : s.dictSize + s.laSize < 512 := by have := hw.dict_le; omega
  rw [laHd_eq_dictTl_add]
  exact mask_ne_of_offset s.dictTl (hq.trans hend) hend hq.ne

/-! ## Shift -/

theorem exec_shift_of_ok {n : Nat} {s t : State} (h : shiftWindow n s = .ok t) : exec (.shift n) s = .next t := by
  rw [exec, execShift, h]
  rfl

theorem exec_shift_of_not {n : Nat} {s : State} (h : ¬ (1 ≤ n ∧ n ≤ s.laSize)) :
    exec (.shift n) s = .fault .shiftPrecondition := by
  rw [exec, execShift, shiftWindow, if_neg h]
  rfl

theorem shiftWindow_bf {n : Nat} {s t : State} (h : shiftWindow n s = .ok t) : t.bf = s.bf := by
  obtain ⟨-, rfl⟩ := shiftWindow_eq_ok.mp h
  rfl

theorem shiftWindow_laTl {n : Nat} {s t : State} (h : shiftWindow n s = .ok t) :
    t.laTl = s.laTl + BitVec.ofNat 64 n := by
  obtain ⟨-, rfl⟩ := shiftWindow_eq_ok.mp h
  rfl

/-- The dictionary grows by `n` up to its capacity (R135). -/
theorem shiftWindow_dictSize_eq_min {n : Nat} {s t : State} (h : shiftWindow n s = .ok t) (hw : WindowOk s) :
    t.dictSize = min (s.dictSize + n) 256 := by
  have hsize := shiftWindow_dictSize h hw
  have hforgot : forgottenBy n s = n - (256 - s.dictSize) := rfl
  have hD := hw.dict_le
  omega

/-- Shift keeps the window's invariants, whatever its cells hold (R24, R135). -/
theorem shiftWindow_windowOk {n : Nat} {s t : State} (h : shiftWindow n s = .ok t) (hw : WindowOk s) : WindowOk t where
  dict_le := shiftWindow_dictSize_eq_min h hw ▸ Nat.min_le_right _ _
  la_le := shiftWindow_laSize h ▸ (Nat.sub_le _ _).trans hw.la_le

/-- The lookahead's virtual indices go on from the dictionary's (R23, R177). -/
theorem laTl_add_eq_dictTl_add (s : State) (k : Nat) :
    s.laTl + BitVec.ofNat 64 k = s.dictTl + BitVec.ofNat 64 (s.dictSize + k) := by
  rw [State.laTl, dictHd_eq_dictTl_add, BitVec.add_assoc, ← BitVec.ofNat_add]

/-- The dictionary's newest `n` virtual indices after Shift(n) are the lookahead's first `n` before it (R135). -/
theorem shiftWindow_newest_index {n : Nat} {s t : State} (h : shiftWindow n s = .ok t) (hw : WindowOk s) (k : Nat) :
    t.dictTl + BitVec.ofNat 64 (t.dictSize - n + k) = s.laTl + BitVec.ofNat 64 k := by
  obtain ⟨⟨-, hn⟩, -⟩ := shiftWindow_eq_ok.mp h
  have hsize := shiftWindow_dictSize h hw
  have hmin := shiftWindow_dictSize_eq_min h hw
  have hoffset : forgottenBy n s + (t.dictSize - n + k) = s.dictSize + k := by
    have := hw.la_le
    omega
  rw [shiftWindow_dictTl h, BitVec.add_assoc, ← BitVec.ofNat_add, hoffset, laTl_add_eq_dictTl_add]

/-- The lookahead after Shift(n) is the one before it from byte `n` on (R135). -/
theorem shiftWindow_laByte {n : Nat} {s t : State} (h : shiftWindow n s = .ok t) (k : Nat) :
    t.laByte k = s.laByte (n + k) := by
  rw [State.laByte, State.laByte, State.bfAt, State.bfAt, shiftWindow_bf h, shiftWindow_laTl h, BitVec.ofNat_add,
    BitVec.add_assoc]

end Sys2Proof.Machine
end

section
/-! PROOF. O27, O28, O29, O32, O33, O34 and O44: the window's operations. -/

namespace Sys2Proof.Machine

/-- Settles O27: WinInit is its own update of the state. -/
theorem winInitEmptiesTheWindow : Obligations.WinInitEmptiesTheWindow := fun _ => rfl

/-- Settles O28: Fill's equation for each of its three ways. -/
theorem fillReturnsOrAsksForAByte : Obligations.FillReturnsOrAsksForAByte := by
  intro s
  refine ⟨fun room more => ?_, fun room eof => ?_, fun full => ?_⟩ <;> rw [exec, execFill]
  · rw [fill_of_room room more]
    rfl
  · rw [fill_of_eof room eof]
    rfl
  · rw [fill_of_full full]
    rfl

/-- Settles O34: a live cell's offset from `dict.tl` differs from that of `la.hd`, and both are below 512. -/
theorem fillWritesAFreeCell : Obligations.FillWritesAFreeCell :=
  fun _ hw room _ hq => mask_live_ne_mask_laHd hw room hq

/-- Settles O29: the driver goes on from the state with the byte stored, and writes nothing of Fill's after that. -/
theorem fillStoresEachByte : Obligations.FillStoresEachByte := by
  intro s b rest hi hp hm
  have hc : s.phase.engine = some .compress := by rw [hp]; rfl
  obtain ⟨room, more⟩ := (hi.compress hc).reading hp
  have hrun := step_fillByte hp hm
  have hsize : (storeInput b (recordMove s (.input (.byte b)) rest)).laSize = s.laSize + 1 :=
    storeInput_laSize (s := recordMove s (.input (.byte b)) rest) b room
  have hstored : DriverOk (storeInput b (recordMove s (.input (.byte b)) rest)) :=
    ((recordMove_inv (.input (.byte b)) rest hi).driverOk hc).afterStoreInput b room
  refine ⟨s.bf.write (mask s.laHd) b, fun a => Memory.read_write _ _ a b, hrun, fun hroom => ?_, fun _ => ?_⟩
  · exact hrun.trans (exec_compressRun_of_reading hp (hsize.trans_lt hroom) more)
  · obtain ⟨t, ht, hside, hframe⟩ := hstored.exec_compressRun
    simp only [inputSide, Prod.mk.injEq] at hside
    obtain ⟨hbf, hhd, heof⟩ := hside
    have htaken : t.inTaken = s.inTaken ++ [b] := (congrArg State.inTaken hframe :)
    exact ⟨t, hrun.trans ht, hbf, hhd, htaken, heof.trans more⟩

/-- Settles O32: Shift's update on its precondition, and its fault outside it. -/
theorem shiftMovesTheCursors : Obligations.ShiftMovesTheCursors :=
  fun _ _ => ⟨fun h1 hn => exec_shift_of_ok (shiftWindow_eq_ok.mpr ⟨⟨h1, hn⟩, rfl⟩),
    fun hpast => exec_shift_of_not fun h => hpast.not_ge h.2⟩

/-- Settles O33: Shift moves two cursors past `n` virtual indices, which stay the same cells. -/
theorem shiftMovesBytesIntoTheDictionary : Obligations.ShiftMovesBytesIntoTheDictionary := by
  intro n s hw h1 hn
  obtain ⟨t, ht⟩ : ∃ t, shiftWindow n s = .ok t := ⟨_, shiftWindow_eq_ok.mpr ⟨⟨h1, hn⟩, rfl⟩⟩
  refine ⟨t, exec_shift_of_ok ht, shiftWindow_dictSize_eq_min ht hw, shiftWindow_laSize ht,
    shiftWindow_windowOk ht hw, shiftWindow_bf ht, fun k _ => ?_, fun k _ => shiftWindow_laByte ht k⟩
  have hindex := shiftWindow_newest_index ht hw k
  have hbyte : t.textByte (t.dictSize - n + k) = s.laByte k := by
    rw [State.textByte, State.laByte, State.bfAt, State.bfAt, hindex, shiftWindow_bf ht]
  exact ⟨hbyte, congrArg mask hindex⟩

/-- Settles O44: both preconditions fail at 0. -/
theorem brokenPreconditionsStop : Obligations.BrokenPreconditionsStop := by
  intro s site
  refine ⟨exec_shift_of_not fun h => Nat.not_succ_le_zero 0 h.1, fun hn => ?_⟩
  rw [exec, execFlush, flush, if_pos hn]
  rfl

end Sys2Proof.Machine
end

section
/-! SUPPORT. BuildTable's entries are the longest borders of the lookahead's prefixes (spec/42_kmp_table.md R150,
R151): the borders of a prefix, what a border of the next prefix is, and the invariants of BuildTable's two loops. -/

namespace Sys2Proof.Machine

/-! ## Borders -/

theorem isBorder_zero (S : Nat → Option Byte) (k : Nat) : IsBorder S k 0 :=
  ⟨Nat.zero_le k, fun _ hq => absurd hq (Nat.not_lt_zero _)⟩

theorem IsBorder.le {S : Nat → Option Byte} {k l : Nat} (h : IsBorder S k l) : l ≤ k := h.1

theorem isFailureEntry_zero (S : Nat → Option Byte) : IsFailureEntry S 0 0 :=
  ⟨isBorder_zero S 0, fun _ hl => hl.le⟩

theorem IsFailureEntry.le {S : Nat → Option Byte} {k l : Nat} (h : IsFailureEntry S k l) : l ≤ k := h.1.le

/-- A nonempty border of the next prefix is a border of this one that the next byte extends (R150). -/
theorem isBorder_succ_succ {S : Nat → Option Byte} {q l : Nat} :
    IsBorder S (q + 1) (l + 1) ↔ IsBorder S q l ∧ S l = S (q + 1) := by
  have hshift : q + 1 + 1 - (l + 1) = q + 1 - l := by omega
  simp only [IsBorder, hshift, Nat.add_le_add_iff_right, Nat.forall_lt_succ_right, and_assoc]
  refine and_congr_right fun hl => ?_
  rw [Nat.sub_add_cancel (by omega)]

/-- The borders of a border `S[0..k]` of `S[0..q]` are the borders of `S[0..q]` that are shorter than it (R150). -/
theorem isBorder_of_border {S : Nat → Option Byte} {q k l : Nat} (h : IsBorder S q (k + 1)) :
    IsBorder S k l ↔ IsBorder S q l ∧ l ≤ k := by
  obtain ⟨hk, hcopy⟩ := h
  have hmove : l ≤ k → ∀ i, i < l → S (k + 1 - l + i) = S (q + 1 - l + i) := by
    intro hl i hi
    rw [hcopy _ (by omega)]
    congr 1
    omega
  constructor
  · rintro ⟨hl, hb⟩
    exact ⟨⟨by omega, fun i hi => (hb i hi).trans (hmove hl i hi)⟩, hl⟩
  · rintro ⟨⟨-, hb⟩, hl⟩
    exact ⟨hl, fun i hi => (hb i hi).trans (hmove hl i hi).symm⟩

/-- The inner loop's invariant: `k` is a border of `S[0..q]`, and no longer one is extended by the next byte `x`. -/
structure BoundsExtensions (S : Nat → Option Byte) (q : Nat) (x : Byte) (k : Nat) : Prop where
  border : IsBorder S q k
  bound : ∀ l, IsBorder S q l → S l = some x → l ≤ k

theorem IsFailureEntry.boundsExtensions {S : Nat → Option Byte} {q k : Nat} (h : IsFailureEntry S q k) (x : Byte) :
    BoundsExtensions S q x k :=
  ⟨h.1, fun l hl _ => h.2 l hl⟩

/-- When `x` does not extend a border, the next one to try is that border's own longest border. -/
theorem BoundsExtensions.fallBack {S : Nat → Option Byte} {q k l : Nat} {x : Byte}
    (h : BoundsExtensions S q x (k + 1)) (hx : S (k + 1) ≠ some x) (hl : IsFailureEntry S k l) :
    BoundsExtensions S q x l := by
  obtain ⟨hborder, hlongest⟩ := hl
  refine ⟨((isBorder_of_border h.border).mp hborder).1, fun l' hl' hx' => ?_⟩
  have hne : l' ≠ k + 1 := by rintro rfl; exact hx hx'
  have hle : l' ≤ k + 1 := h.bound l' hl' hx'
  exact hlongest l' ((isBorder_of_border h.border).mpr ⟨hl', by omega⟩)

/-- The border the inner loop ends at gives the next entry: one longer where `x` extends it, and otherwise 0. -/
theorem BoundsExtensions.isFailureEntry {S : Nat → Option Byte} {q k : Nat} {x y : Byte}
    (h : BoundsExtensions S q x k) (hx : S (q + 1) = some x) (hy : S k = some y) (hend : k ≠ 0 → x = y) :
    IsFailureEntry S (q + 1) (if x = y then k + 1 else k) := by
  have hext : ∀ l, IsBorder S (q + 1) (l + 1) → S l = some x ∧ l ≤ k := by
    intro l hl
    obtain ⟨hborder, hnext⟩ := isBorder_succ_succ.mp hl
    exact ⟨hnext.trans hx, h.bound l hborder (hnext.trans hx)⟩
  split
  next hxy =>
    refine ⟨isBorder_succ_succ.mpr ⟨h.border, by rw [hy, hx, hxy]⟩, fun l' hl' => ?_⟩
    cases l' with
    | zero => exact Nat.zero_le _
    | succ l => exact Nat.succ_le_succ (hext l hl').2
  next hxy =>
    obtain rfl : k = 0 := by_contra fun hk => hxy (hend hk)
    refine ⟨isBorder_zero S (q + 1), fun l' hl' => ?_⟩
    cases l' with
    | zero => exact le_rfl
    | succ l =>
      obtain ⟨hlx, hl0⟩ := hext l hl'
      obtain rfl : l = 0 := Nat.le_zero.mp hl0
      exact absurd (Option.some.inj (hlx.symm.trans hy)) hxy

/-! ## The entries of `T` -/

/-- The first `m` entries of `T` are the longest borders of the prefixes of `S` (R150). -/
def EntriesLongest (S : Nat → Option Byte) (t : Memory) (m : Nat) : Prop :=
  ∀ k, k < m → ∃ b, t.read k = some b ∧ IsFailureEntry S k b.toNat

theorem tableUpTo_iff (s : State) (m : Nat) : TableUpTo s m ↔ EntriesLongest s.laByte s.t m := Iff.rfl

theorem entriesLongest_zero (S : Nat → Option Byte) (t : Memory) : EntriesLongest S t 0 :=
  fun _ hk => absurd hk (Nat.not_lt_zero _)

theorem EntriesLongest.write {S : Nat → Option Byte} {t : Memory} {m v : Nat} (h : EntriesLongest S t m)
    (hv : IsFailureEntry S m v) (hm : m < 256) : EntriesLongest S (t.write m (BitVec.ofNat 8 v)) (m + 1) := by
  intro k hk
  rw [Memory.read_write]
  split
  next hkm =>
    have hbyte : (BitVec.ofNat 8 v).toNat = v := by
      rw [BitVec.toNat_ofNat, Nat.mod_eq_of_lt (hv.le.trans_lt hm)]
    exact ⟨_, rfl, by rwa [hbyte, hkm]⟩
  · exact h k (by omega)

/-! ## The loops -/

theorem except_bind_eq_ok {α β : Type} {r : Except Fault α} {f : α → Except Fault β} {b : β} :
    (r >>= f) = .ok b ↔ ∃ a, r = .ok a ∧ f a = .ok b := by
  cases r <;> simp [bind, Except.bind]

theorem borderLoop_zero (S : Nat → Option Byte) (t : Memory) (x : Byte) (fuel : Nat) :
    borderLoop S t x (fuel + 1) 0 = .ok 0 := rfl

/-- One pass of the inner loop at a nonempty border: it ends there, or goes on from the entry of that border. -/
theorem borderLoop_succ_eq_ok {S : Nat → Option Byte} {t : Memory} {x : Byte} {fuel k k' : Nat} :
    borderLoop S t x (fuel + 1) (k + 1) = .ok k' ↔ ∃ y, S (k + 1) = some y ∧
      (x = y ∧ k' = k + 1 ∨
        x ≠ y ∧ ∃ b, t.read k = some b ∧ borderLoop S t x fuel b.toNat = .ok k') := by
  rw [borderLoop, if_neg k.succ_ne_zero]
  simp only [except_bind_eq_ok, written_eq_ok, Nat.add_sub_cancel]
  refine exists_congr fun y => and_congr_right fun _ => ?_
  split
  next hxy => simp [hxy, eq_comm]
  next hxy => simp [hxy, except_bind_eq_ok, written_eq_ok]

/-- One pass of the outer loop: one entry is written (R151). -/
theorem tableLoop_succ_eq_ok {S : Nat → Option Byte} {count q k : Nat} {t t' : Memory} :
    tableLoop S (count + 1) q k t = .ok t' ↔ ∃ x k' y,
      S q = some x ∧ borderLoop S t x (k + 1) k = .ok k' ∧ S k' = some y ∧
      tableLoop S count (q + 1) (if x = y then k' + 1 else k')
        (t.write q (BitVec.ofNat 8 (if x = y then k' + 1 else k'))) = .ok t' := by
  simp only [tableLoop, except_bind_eq_ok, written_eq_ok, exists_and_left]

/-- The inner loop keeps its invariant, and ends at 0 or at a border that `x` extends (R151). -/
theorem borderLoop_boundsExtensions {S : Nat → Option Byte} {t : Memory} {x : Byte} {q fuel k k' : Nat}
    (ht : EntriesLongest S t (q + 1)) (hrun : borderLoop S t x fuel k = .ok k') (h : BoundsExtensions S q x k) :
    BoundsExtensions S q x k' ∧ (k' ≠ 0 → S k' = some x) := by
  induction fuel generalizing k with
  | zero => cases hrun
  | succ fuel ih =>
    cases k with
    | zero =>
      rw [borderLoop_zero] at hrun
      cases hrun
      exact ⟨h, fun hne => absurd rfl hne⟩
    | succ k =>
      obtain ⟨y, hy, ⟨rfl, rfl⟩ | ⟨hxy, b, hb, hrest⟩⟩ := borderLoop_succ_eq_ok.mp hrun
      · exact ⟨h, fun _ => hy⟩
      · have hkq : k < q + 1 := by have := h.border.le; omega
        obtain ⟨b', hb', hentry⟩ := ht k hkq
        obtain rfl : b' = b := Option.some.inj (hb'.symm.trans hb)
        exact ih hrest (h.fallBack (by simpa [hy] using Ne.symm hxy) hentry)

/-- The outer loop at entry `q + 1`, with `k` the entry before it, writes longest borders (R150, R151). -/
theorem tableLoop_entriesLongest {S : Nat → Option Byte} {count q k : Nat} {t t' : Memory}
    (hrun : tableLoop S count (q + 1) k t = .ok t') (hm : q + 1 + count ≤ 256)
    (ht : EntriesLongest S t (q + 1)) (hk : IsFailureEntry S q k) : EntriesLongest S t' (q + 1 + count) := by
  induction count generalizing q k t with
  | zero =>
    cases hrun
    exact ht
  | succ count ih =>
    obtain ⟨x, k', y, hx, hborder, hy, hrest⟩ := tableLoop_succ_eq_ok.mp hrun
    obtain ⟨hbounds, hend⟩ := borderLoop_boundsExtensions ht hborder (hk.boundsExtensions x)
    have hentry := hbounds.isFailureEntry hx hy fun hne => Option.some.inj ((hend hne).symm.trans hy)
    have hcount : q + 1 + 1 + count = q + 1 + (count + 1) := by omega
    exact hcount ▸ ih hrest (by omega) (ht.write hentry (by omega)) hentry

theorem tableLoop_read_beyond {S : Nat → Option Byte} {count q k : Nat} {t t' : Memory}
    (hrun : tableLoop S count q k t = .ok t') {i : Nat} (hi : q + count ≤ i) : t'.read i = t.read i := by
  induction count generalizing q k t with
  | zero =>
    cases hrun
    rfl
  | succ count ih =>
    obtain ⟨x, k', y, -, -, -, hrest⟩ := tableLoop_succ_eq_ok.mp hrun
    rw [ih hrest (by omega), Memory.read_write_other _ _ (by omega)]

/-- A table that was built holds the longest borders, and no entry past the lookahead was written (R150, R151). -/
theorem buildEntries_spec {S : Nat → Option Byte} {m : Nat} {t t' : Memory} (h : buildEntries S m t = .ok t') :
    EntriesLongest S t' m ∧ ∀ i, m ≤ i → t'.read i = t.read i := by
  unfold buildEntries at h
  split_ifs at h with hempty hlong
  · cases h
    subst m
    exact ⟨entriesLongest_zero S t, fun _ _ => rfl⟩
  · have hm : 0 + 1 + (m - 1) = m := by omega
    have hfirst : EntriesLongest S (t.write 0 0) (0 + 1) :=
      (entriesLongest_zero S t).write (isFailureEntry_zero S) (by omega)
    have hlongest := tableLoop_entriesLongest h (hm.trans_le (Nat.le_of_not_gt hlong)) hfirst (isFailureEntry_zero S)
    refine ⟨hm ▸ hlongest, fun i hi => ?_⟩
    rw [tableLoop_read_beyond h (by omega), Memory.read_write_other _ _ (by omega)]

/-- BuildTable completes, with the table that `buildEntries` builds (R151). -/
theorem exec_buildTable_returns {s : State} (hw : WindowOk s) (hl : LiveWritten s) :
    ∃ t, exec .buildTable s = .next { s with t := t } ∧ buildEntries s.laByte s.laSize s.t = .ok t := by
  obtain ⟨t, ht, -⟩ := buildEntries_ok (fun i hi => hl.laByte hi) hw.la_le s.t
  refine ⟨t, ?_, ht⟩
  rw [exec, execBuildTable, buildTable, ht]
  rfl

end Sys2Proof.Machine
end

section
/-! PROOF. O35: BuildTable. -/

namespace Sys2Proof.Machine

/-- Settles O35: the table that BuildTable returns with is the one its loops build. -/
theorem buildTableWritesTheLongestBorders : Obligations.BuildTableWritesTheLongestBorders := by
  intro s hw hl
  obtain ⟨t', hrun, hbuilt⟩ := exec_buildTable_returns hw hl
  obtain ⟨hlongest, hbeyond⟩ := buildEntries_spec hbuilt
  exact ⟨t', hrun, (tableUpTo_iff _ _).mpr hlongest, hbeyond⟩

end Sys2Proof.Machine
end

section
/-! SUPPORT. Search returns the longest match at its oldest start (spec/43_search.md R170 to R177): the loop on the
numbers its cursors stand for, how a partial match and its borders place the next start, and the loop's invariant. -/

namespace Sys2Proof.Machine

/-! ## The loop, on the candidate start and the partial match's length -/

/-- The loop of R170 where the partial match of the first `p` lookahead bytes starts at dictionary offset `o` (R172). -/
def searchFrom (s : State) (fuel o p : Nat) (best : Cursor × Nat) : Except Fault (Cursor × Nat) :=
  searchLoop s.bfAt s.t.read s.dictTl s.laTl s.laHd fuel (s.laTl + BitVec.ofNat 64 p)
    (s.dictTl + BitVec.ofNat 64 (o + p)) best

/-- R176: the best pair after a mismatch that ends a partial match of `p` bytes at `o`. -/
def recordPartial (o p : Nat) (best : Cursor × Nat) : Cursor × Nat :=
  if p > best.2 then (BitVec.ofNat 64 o, p) else best

theorem findMatch_of_empty {s : State} (h : s.laSize = 0) : findMatch s = .ok (0, 0) := if_pos h

theorem findMatch_eq_searchFrom {s : State} (h : s.laSize ≠ 0) :
    findMatch s = searchFrom s (2 * (s.dictSize + s.laSize) + 1) 0 0 (0, 0) := by
  simp [findMatch, searchFrom, h]

theorem exec_search_of_findMatch {s : State} {r : Cursor × Nat} (h : findMatch s = .ok r) :
    exec .search s = .next { s with result := .search r.1 r.2 } := by
  rw [exec, execSearch, search, h]
  rfl

/-- R172: the wrapping subtractions give back the candidate start. -/
theorem candidate_start (s : State) (o p : Nat) :
    s.dictTl + BitVec.ofNat 64 (o + p) - s.dictTl - (s.laTl + BitVec.ofNat 64 p - s.laTl) = BitVec.ofNat 64 o := by
  rw [BitVec.add_comm, BitVec.add_sub_cancel, BitVec.add_comm s.laTl, BitVec.add_sub_cancel, BitVec.ofNat_add,
    BitVec.add_sub_cancel]

/-- The dictionary's size is the candidate start at its head (R110, R173). -/
theorem laTl_sub_dictTl (s : State) : s.laTl - s.dictTl = BitVec.ofNat 64 s.dictSize := by
  rw [State.dictSize, ringSize, BitVec.ofNat_toNat, BitVec.setWidth_eq]

/-- R173: at the dictionary's head the loop ends, whatever the memories hold. -/
theorem searchFrom_dictSize (s : State) (fuel p : Nat) (best : Cursor × Nat) :
    searchFrom s (fuel + 1) s.dictSize p best = .ok best := by
  simp only [searchFrom, searchLoop, candidate_start, laTl_sub_dictTl, if_true, ite_self]

/-- One pass of the loop at a start inside the dictionary (R174, R175): `b` is the entry of `T` it falls back to. -/
theorem searchFrom_succ {s : State} (hw : WindowOk s) {fuel o p : Nat} {best : Cursor × Nat} {x y b : Byte}
    (ho : o < s.dictSize) (hp : p < s.laSize) (hx : s.laByte p = some x) (hy : s.textByte (o + p) = some y)
    (hb : p ≠ 0 → s.t.read (p - 1) = some b ∧ b.toNat ≤ p) :
    searchFrom s (fuel + 1) o p best =
      if x = y then
        if p + 1 = s.laSize then .ok (BitVec.ofNat 64 o, p + 1) else searchFrom s fuel o (p + 1) best
      else if p = 0 then searchFrom s fuel (o + 1) 0 best
      else searchFrom s fuel (o + (p - b.toNat)) b.toNat (recordPartial o p best) := by
  have hD := hw.dict_le
  have hm := hw.la_le
  have hj : s.dictTl + BitVec.ofNat 64 (o + p) ≠ s.laHd := by
    rw [laHd_eq_dictTl_add, Ne, cursor_offset_inj _ (by omega) (by omega)]
    omega
  have hstart : BitVec.ofNat 64 o ≠ s.laTl - s.dictTl := by
    have := (cursor_offset_inj s.dictTl (a := o) (b := s.dictSize) (by omega) (by omega)).not.mpr ho.ne
    rwa [BitVec.add_right_inj, ← laTl_sub_dictTl] at this
  have hfull : s.laTl + BitVec.ofNat 64 (p + 1) = s.laHd ↔ p + 1 = s.laSize := by
    rw [laHd_eq_laTl_add, cursor_offset_inj _ (by omega) (by omega)]
  have hnone : s.laTl + BitVec.ofNat 64 p = s.laTl ↔ p = 0 := by
    simpa using cursor_offset_inj s.laTl (a := p) (b := 0) (by omega) (by omega)
  rw [State.laByte] at hx
  rw [State.textByte] at hy
  simp only [searchFrom, searchLoop, candidate_start, hj, hstart, hx, hy, hfull, hnone, written_some, if_false,
    cursor_offset_succ, bind, Except.bind, cursor_offset_sub s.laTl (a := p) (by omega),
    cursor_offset_sub s.laTl (a := p + 1) (by omega), Nat.add_assoc]
  refine ite_congr rfl (fun _ => rfl) fun _ => ite_congr rfl (fun hzero => by rw [hzero]) fun hzero => ?_
  obtain ⟨hread, hle⟩ := hb hzero
  rw [hread, Nat.sub_add_cancel hle, BitVec.ofNat_toNat]
  rfl

/-! ## Matches and borders -/

theorem matchesAt_zero (s : State) (o : Nat) : MatchesAt s o 0 := fun _ hq => absurd hq (Nat.not_lt_zero _)

theorem matchesAt_succ {s : State} {o l : Nat} :
    MatchesAt s o (l + 1) ↔ MatchesAt s o l ∧ s.textByte (o + l) = s.laByte l :=
  Nat.forall_lt_succ_right

theorem MatchesAt.mono {s : State} {o l l' : Nat} (h : MatchesAt s o l) (hl : l' ≤ l) : MatchesAt s o l' :=
  fun q hq => h q (hq.trans_le hl)

/-- A start with a mismatch after `p` bytes has no longer match. -/
theorem MatchesAt.le_of_mismatch {s : State} {o p l : Nat} (h : MatchesAt s o l)
    (hne : s.textByte (o + p) ≠ s.laByte p) : l ≤ p :=
  Nat.le_of_not_gt fun hlt => hne (h p hlt)

/-- The lookahead matches itself at the dictionary's head (R177). -/
theorem matchesAt_dictSize (s : State) (l : Nat) : MatchesAt s s.dictSize l :=
  fun q _ => (laByte_eq_textByte s q).symm

/-- Inside a partial match, the later starts whose matches reach its end are its borders (R150, R175). -/
theorem MatchesAt.isBorder_iff {s : State} {o k l : Nat} (h : MatchesAt s o (k + 1)) (hl : l ≤ k) :
    IsBorder s.laByte k l ↔ MatchesAt s (o + (k + 1 - l)) l := by
  have hcopy : ∀ q, q < l → s.textByte (o + (k + 1 - l) + q) = s.laByte (k + 1 - l + q) := fun q hq => by
    rw [Nat.add_assoc, h _ (by omega)]
  exact ⟨fun hborder q hq => (hcopy q hq).trans (hborder.2 q hq).symm,
    fun hmatch => ⟨hl, fun q hq => (hmatch q hq).symm.trans (hcopy q hq)⟩⟩

/-- No start that the fallback skips has a match that reaches the end of the partial match (R175, R177). -/
theorem MatchesAt.start_ge_of_reaches {s : State} {o o' k b : Nat} (h : MatchesAt s o (k + 1))
    (hb : IsFailureEntry s.laByte k b) (hlater : o < o') (hreach : MatchesAt s o' (o + (k + 1) - o')) :
    o + (k + 1 - b) ≤ o' := by
  by_contra hskipped
  have hstart : o + (k + 1 - (o + (k + 1) - o')) = o' := by omega
  have hborder := (h.isBorder_iff (l := o + (k + 1) - o') (by omega)).mpr (hstart.symm ▸ hreach)
  have hle := hb.2 _ hborder
  omega

/-! ## The best pair so far -/

/-- R177 for the starts below `bound` only: `(o, len)` is their longest match at its oldest start. -/
structure IsBestBelow (s : State) (bound o len : Nat) : Prop where
  len_le : len ≤ s.laSize
  longest : ∀ o' l, o' < bound → l ≤ s.laSize → MatchesAt s o' l → l ≤ len
  found : len ≠ 0 → o < bound ∧ MatchesAt s o len ∧ ∀ o', o' < o → ¬ MatchesAt s o' len
  empty : len = 0 → o = 0

theorem IsBestBelow.isLongestMatch {s : State} {o len : Nat} (h : IsBestBelow s s.dictSize o len) :
    IsLongestMatch s o len :=
  ⟨h.len_le, h.longest, h.found, h.empty⟩

/-- A match of `p` bytes at `o` is recorded where it is longer than the best of the starts before it; that is the best
of the starts before `o'` when none of those from `o` on has a match longer than `p` (R176, R177). -/
theorem IsBestBelow.afterPartial {s : State} {o o' p : Nat} {best : Cursor × Nat}
    (h : IsBestBelow s o best.1.toNat best.2) (hcursor : o < 2 ^ 64) (hnext : o < o') (hp : p ≤ s.laSize)
    (hmatch : MatchesAt s o p) (hmax : ∀ a l, o ≤ a → a < o' → l ≤ s.laSize → MatchesAt s a l → l ≤ p) :
    IsBestBelow s o' (recordPartial o p best).1.toNat (recordPartial o p best).2 := by
  unfold recordPartial
  split
  next hlonger =>
    rw [BitVec.toNat_ofNat, Nat.mod_eq_of_lt hcursor]
    refine ⟨hp, fun a l ha hl hal => ?_, fun _ => ⟨hnext, hmatch, fun a ha hap => ?_⟩, fun hzero => ?_⟩
    · obtain hbefore | hfrom := Nat.lt_or_ge a o
      · exact (h.longest a l hbefore hl hal).trans hlonger.le
      · exact hmax a l hfrom ha hl hal
    · exact hlonger.not_ge (h.longest a p ha hp hap)
    · exact absurd hzero (Nat.ne_zero_of_lt hlonger)
  next hnot =>
    refine ⟨h.len_le, fun a l ha hl hal => ?_, fun hne => ?_, h.empty⟩
    · obtain hbefore | hfrom := Nat.lt_or_ge a o
      · exact h.longest a l hbefore hl hal
      · exact (hmax a l hfrom ha hl hal).trans (Nat.le_of_not_gt hnot)
    · obtain ⟨hlt, hfound⟩ := h.found hne
      exact ⟨hlt.trans hnext, hfound⟩

theorem isBestBelow_zero (s : State) : IsBestBelow s 0 0 0 :=
  ⟨Nat.zero_le _, fun _ _ ho => absurd ho (Nat.not_lt_zero _), fun h => absurd rfl h, fun _ => rfl⟩

/-! ## The loop's invariant -/

/-- The invariant of R170's loop: the first `p` bytes match at `o`, and `best` is the best of the starts before it. -/
structure SearchInv (s : State) (o p : Nat) (best : Cursor × Nat) : Prop where
  window : WindowOk s
  start_le : o ≤ s.dictSize
  partial_lt : p < s.laSize
  current : MatchesAt s o p
  best_of_earlier : IsBestBelow s o best.1.toNat best.2
  best_lt : best.2 < s.laSize

theorem searchInv_start {s : State} (hw : WindowOk s) (hne : s.laSize ≠ 0) : SearchInv s 0 0 (0, 0) where
  window := hw
  start_le := Nat.zero_le _
  partial_lt := Nat.pos_of_ne_zero hne
  current := matchesAt_zero s 0
  best_of_earlier := isBestBelow_zero s
  best_lt := Nat.pos_of_ne_zero hne

section
variable {s : State} {o p : Nat} {best : Cursor × Nat}

theorem SearchInv.start_lt_cursor (h : SearchInv s o p best) : o < 2 ^ 64 := by
  have hD := h.window.dict_le
  have ho := h.start_le
  omega

/-- R173: at the dictionary's head every start has been tried. -/
theorem SearchInv.isLongestMatch_of_dictSize (h : SearchInv s s.dictSize p best) :
    IsLongestMatch s best.1.toNat best.2 :=
  h.best_of_earlier.isLongestMatch

/-- R174: equal bytes extend the partial match. -/
theorem SearchInv.extend (h : SearchInv s o p best) (heq : s.textByte (o + p) = s.laByte p)
    (hlt : p + 1 < s.laSize) : SearchInv s o (p + 1) best :=
  { h with partial_lt := hlt, current := matchesAt_succ.mpr ⟨h.current, heq⟩ }

/-- R174: the first match of the whole lookahead is the longest, whatever starts are still to come. -/
theorem SearchInv.isLongestMatch_of_full (h : SearchInv s o p best) (ho : o < s.dictSize)
    (heq : s.textByte (o + p) = s.laByte p) (hfull : p + 1 = s.laSize) :
    IsLongestMatch s (BitVec.ofNat 64 o).toNat (p + 1) := by
  have hmatch : MatchesAt s o (p + 1) := matchesAt_succ.mpr ⟨h.current, heq⟩
  have hbest := h.best_of_earlier.afterPartial h.start_lt_cursor ho hfull.le hmatch
    fun _ _ _ _ hl _ => hl.trans hfull.ge
  rw [recordPartial, if_pos (hfull ▸ h.best_lt)] at hbest
  exact hbest.isLongestMatch

theorem SearchInv.recordPartial_lt (h : SearchInv s o p best) : (recordPartial o p best).2 < s.laSize := by
  unfold recordPartial
  split
  · exact h.partial_lt
  · exact h.best_lt

/-- R175: with no partial match the next start is the next byte. -/
theorem SearchInv.advance (h : SearchInv s o 0 best) (ho : o < s.dictSize)
    (hne : s.textByte (o + 0) ≠ s.laByte 0) : SearchInv s (o + 1) 0 best where
  window := h.window
  start_le := ho
  partial_lt := h.partial_lt
  current := matchesAt_zero s _
  best_of_earlier := by
    refine h.best_of_earlier.afterPartial (p := 0) h.start_lt_cursor o.lt_succ_self (Nat.zero_le _) h.current
      fun a l hfrom hlt _ hal => ?_
    obtain rfl : a = o := by omega
    exact hal.le_of_mismatch hne
  best_lt := h.best_lt

/-- R175, R176: after a partial match the next start is the one of its longest border. The starts between have no longer
match, and the dictionary's head is not one of them, since the lookahead matches there. -/
theorem SearchInv.fallBack {k b : Nat} (h : SearchInv s o (k + 1) best) (ho : o < s.dictSize)
    (hne : s.textByte (o + (k + 1)) ≠ s.laByte (k + 1)) (hb : IsFailureEntry s.laByte k b) :
    SearchInv s (o + (k + 1 - b)) b (recordPartial o (k + 1) best) where
  window := h.window
  start_le := h.current.start_ge_of_reaches hb ho (matchesAt_dictSize s _)
  partial_lt := (Nat.lt_succ_of_le hb.le).trans h.partial_lt
  current := (h.current.isBorder_iff hb.le).mp hb.1
  best_of_earlier := by
    have hbk := hb.le
    refine h.best_of_earlier.afterPartial h.start_lt_cursor (by omega) h.partial_lt.le h.current
      fun a l hfrom hlt _ hal => ?_
    obtain rfl | hlater := hfrom.eq_or_lt
    · exact hal.le_of_mismatch hne
    · by_contra hlong
      exact hlt.not_ge (h.current.start_ge_of_reaches hb hlater (hal.mono (by omega)))
  best_lt := h.recordPartial_lt

end

/-- The entry that a partial match of `p` bytes falls back to (R150, R175). -/
theorem TableUpTo.fallBack_entry {s : State} {p : Nat} (h : TableUpTo s (s.laSize - 1)) (hp : p < s.laSize) :
    ∃ b, p ≠ 0 → s.t.read (p - 1) = some b ∧ IsFailureEntry s.laByte (p - 1) b.toNat := by
  cases p with
  | zero => exact ⟨0, fun hne => absurd rfl hne⟩
  | succ k =>
    obtain ⟨b, hb⟩ := h k (by omega)
    exact ⟨b, fun _ => hb⟩

/-- From its invariant the loop ends within the bound of R179, with the longest match (R177). -/
theorem searchFrom_finds {s : State} (hl : LiveWritten s) (ht : TableUpTo s (s.laSize - 1)) {fuel o p : Nat}
    {best : Cursor × Nat} (h : SearchInv s o p best)
    (hfuel : 2 * (s.dictSize + s.laSize) < fuel + (2 * o + p)) :
    ∃ r, searchFrom s fuel o p best = .ok r ∧ IsLongestMatch s r.1.toNat r.2 := by
  induction fuel generalizing o p best with
  | zero =>
    have ho := h.start_le
    have hp := h.partial_lt
    omega
  | succ fuel ih =>
    obtain rfl | ho := h.start_le.eq_or_lt
    · exact ⟨best, searchFrom_dictSize s fuel p best, h.isLongestMatch_of_dictSize⟩
    have hp := h.partial_lt
    obtain ⟨x, hx⟩ := Option.isSome_iff_exists.mp (hl.laByte hp)
    obtain ⟨y, hy⟩ := Option.isSome_iff_exists.mp (hl (o + p) (by omega))
    have hcompare : s.textByte (o + p) = s.laByte p ↔ x = y := by rw [hx, hy, Option.some_inj, eq_comm]
    obtain ⟨b, hb⟩ := ht.fallBack_entry hp
    rw [searchFrom_succ h.window ho hp hx hy fun hp0 => ⟨(hb hp0).1, (hb hp0).2.le.trans (p.sub_le 1)⟩]
    split_ifs with hxy hfull hzero
    · exact ⟨_, rfl, h.isLongestMatch_of_full ho (hcompare.mpr hxy) hfull⟩
    · exact ih (h.extend (hcompare.mpr hxy) (by omega)) (by omega)
    · subst hzero
      exact ih (h.advance ho (hcompare.not.mpr hxy)) (by omega)
    · obtain ⟨k, rfl⟩ := Nat.exists_eq_succ_of_ne_zero hzero
      obtain ⟨-, hentry⟩ := hb hzero
      have hbk : b.toNat ≤ k := hentry.le
      exact ih (h.fallBack ho (hcompare.not.mpr hxy) hentry) (by omega)

/-- Search's loop finds the longest match from the table of the current lookahead (R170, R177). -/
theorem findMatch_finds {s : State} (hw : WindowOk s) (hl : LiveWritten s) (ht : TableUpTo s (s.laSize - 1)) :
    ∃ r, findMatch s = .ok r ∧ IsLongestMatch s r.1.toNat r.2 := by
  by_cases hempty : s.laSize = 0
  · exact ⟨(0, 0), findMatch_of_empty hempty, Nat.zero_le _, fun _ _ _ hm _ => hempty ▸ hm, fun h => absurd rfl h,
      fun _ => rfl⟩
  · rw [findMatch_eq_searchFrom hempty]
    exact searchFrom_finds hl ht (searchInv_start hw hempty) (by omega)

/-- With either side empty the guard or the first pass ends the search (R171, R173). -/
theorem findMatch_of_emptySide {s : State} (h : s.laSize = 0 ∨ s.dictSize = 0) : findMatch s = .ok (0, 0) := by
  by_cases hempty : s.laSize = 0
  · exact findMatch_of_empty hempty
  · have hdict : s.dictSize = 0 := h.resolve_left hempty
    have hfirst := fun fuel => searchFrom_dictSize s fuel 0 (0, 0)
    rw [hdict] at hfirst
    exact (findMatch_eq_searchFrom hempty).trans (hfirst _)

end Sys2Proof.Machine
end

section
/-! PROOF. O36 and O37: Search. -/

namespace Sys2Proof.Machine

/-- Settles O36: the loop tries the starts in order, and passes over one only when no match there is longer than
the best. -/
theorem searchFindsTheLongestOldestMatch : Obligations.SearchFindsTheLongestOldestMatch := by
  intro s hw hl ht
  obtain ⟨⟨o, len⟩, hfound, hlongest⟩ := findMatch_finds hw hl ht
  exact ⟨o, len, exec_search_of_findMatch hfound, hlongest⟩

/-- Settles O37: the guard of R171, or the first pass's check of R173. -/
theorem searchOnAnEmptySideFindsNothing : Obligations.SearchOnAnEmptySideFindsNothing :=
  fun _ h => exec_search_of_findMatch (findMatch_of_emptySide h)

end Sys2Proof.Machine
end

section
/-! SUPPORT. Policy by its equations: what its test answers, and the token and the Shift that follow either answer
(spec/44_match_policy.md R190 to R194). -/

namespace Sys2Proof.Machine

/-! ## The test -/

theorem choosesLiteral_of_short {len : Nat} (short : len < 2) (s0 : Byte) (s : State) :
    choosesLiteral len s0 s = .ok true :=
  if_pos short

theorem choosesLiteral_of_notAsked {len : Nat} {s : State} (hlen : 2 ≤ len)
    (notAsked : ¬ (len = 2 ∧ 3 < s.laSize)) (s0 : Byte) : choosesLiteral len s0 s = .ok false :=
  (if_neg hlen.not_gt).trans (if_neg notAsked)

/-- R192: on written bytes the two-byte heuristic decides. -/
theorem choosesLiteral_two {s : State} {s2 s3 x : Byte} (room : 3 < s.laSize) (h2 : s.laByte 2 = some s2)
    (h3 : s.laByte 3 = some s3) (hx : s.textByte 2 = some x) (s0 : Byte) :
    choosesLiteral 2 s0 s = .ok (decide (s2 = s0 ∧ (s3 = s0 ∨ s3 = x))) := by
  rw [choosesLiteral, if_neg (lt_irrefl 2), if_pos ⟨rfl, room⟩, h2, h3, hx]
  rfl

/-! ## The reference's fields -/

/-- No bit of `off` is lost (R193). -/
theorem referenceToken_a_toNat {o : Cursor} {s : State} (hw : WindowOk s) (ho : o.toNat < s.dictSize) (len : Nat) :
    (referenceToken o len s).a.toNat = s.dictSize - o.toNat - 1 := by
  have hD := hw.dict_le
  calc (referenceToken o len s).a.toNat
      = (BitVec.ofNat 64 s.dictSize - o - 1#64).toNat % 256 := by
        rw [← laTl_sub_dictTl]
        exact BitVec.toNat_setWidth _ _
    _ = s.dictSize - o.toNat - 1 := by
        simp only [BitVec.toNat_sub, BitVec.toNat_ofNat]
        omega

/-- No bit of `lm1` is lost (R193). -/
theorem referenceToken_b_toNat {len : Nat} (hlen : len ≤ 256) (hpos : 1 ≤ len) (o : Cursor) (s : State) :
    (referenceToken o len s).b.toNat = len - 1 :=
  (BitVec.toNat_ofNat _ _).trans (Nat.mod_eq_of_lt (by omega))

/-! ## The operation -/

theorem exec_policy_of_literal {o : Cursor} {len : Nat} {s t : State} {s0 : Byte} (h0 : s.laByte 0 = some s0)
    (hlit : choosesLiteral len s0 s = .ok true) (ht : shiftWindow 1 s = .ok t) :
    exec (.policy o len) s = .next { t with result := .policy (literalToken s0 s), draws := s.draws + 1 } := by
  rw [exec, execPolicy, policy, h0, written_some, Ran.ofExcept_ok, hlit, Ran.ofExcept_ok, if_pos rfl, ht]
  rfl

theorem exec_policy_of_reference {o : Cursor} {len : Nat} {s t : State} {s0 : Byte} (h0 : s.laByte 0 = some s0)
    (href : choosesLiteral len s0 s = .ok false) (ht : shiftWindow len s = .ok t) :
    exec (.policy o len) s = .next { t with result := .policy (referenceToken o len s) } := by
  rw [exec, execPolicy, policy, h0, written_some, Ran.ofExcept_ok, href, Ran.ofExcept_ok,
    if_neg Bool.false_ne_true, ht]
  rfl

/-- Shift(1) forgets a byte exactly when the dictionary is full (R134). -/
theorem dictCapacity_lt_one {s : State} : 1 > s.dictCapacity ↔ 256 ≤ s.dictSize := by
  have hcap : s.dictCapacity = 256 - s.dictSize := rfl
  omega

end Sys2Proof.Machine
end

section
/-! PROOF. O38 and O39: Policy. -/

namespace Sys2Proof.Machine

/-- Settles O38: the test answers yes, by the length or by the heuristic, and Policy goes its literal way. -/
theorem policyGivesALiteral : Obligations.PolicyGivesALiteral := by
  intro o len s s0 hm h0 hcase
  have hlit : choosesLiteral len s0 s = .ok true := by
    obtain short | ⟨rfl, room, h2, s3, x, h3, hx, hpair⟩ := hcase
    · exact choosesLiteral_of_short short s0 s
    · rw [choosesLiteral_two room h2 h3 hx, decide_eq_true ⟨rfl, hpair⟩]
  have ht := shiftWindow_eq_ok.mpr ⟨⟨le_rfl, hm⟩, rfl⟩
  refine ⟨Config.freeByte s.draws, s.draws + 1, (exec_policy_of_literal h0 hlit ht).trans ?_⟩
  simp only [dictCapacity_lt_one]
  rfl

/-- Settles O39: the test answers no, as the heuristic fails or is not asked, and Policy goes its reference way. -/
theorem policyGivesAReference : Obligations.PolicyGivesAReference := by
  intro o len s s0 hw h0 ho hlen hfit hno
  have href : choosesLiteral len s0 s = .ok false := by
    by_cases hasked : len = 2 ∧ 3 < s.laSize
    · obtain ⟨rfl, room⟩ := hasked
      obtain ⟨s2, s3, x, h2, h3, hx, hpair⟩ := hno rfl room
      rw [choosesLiteral_two room h2 h3 hx, decide_eq_false hpair]
    · exact choosesLiteral_of_notAsked hlen hasked s0
  have hpos : 1 ≤ len := Nat.one_le_of_lt hlen
  have ht := shiftWindow_eq_ok.mpr ⟨⟨hpos, hfit⟩, rfl⟩
  exact ⟨_, _, referenceToken_a_toNat hw ho len, referenceToken_b_toNat (hfit.trans hw.la_le) hpos o s,
    exec_policy_of_reference h0 href ht⟩

end Sys2Proof.Machine
end

section
/-! SUPPORT. A token sequence cut into groups: what the groups are, and what they hold together (spec/45_encoder.md
R216, R217). -/

namespace Sys2Proof

theorem groupsFuel_succ (fuel : Nat) {ts : List TokReg} (hts : ts ≠ []) :
    groupsFuel (fuel + 1) ts = ts.take 8 :: groupsFuel fuel (ts.drop 8) := by
  simp [groupsFuel, hts]

/-- Group `j` is the tokens from `8 j` on, as many as a group holds (R216). -/
theorem getElem?_groupsFuel {fuel j : Nat} {ts : List TokReg} (hfuel : ts.length ≤ fuel) (hj : 8 * j < ts.length) :
    (groupsFuel fuel ts)[j]? = some ((ts.drop (8 * j)).take 8) := by
  induction fuel generalizing ts j with
  | zero => omega
  | succ fuel ih =>
    rw [groupsFuel_succ fuel (List.ne_nil_of_length_pos (by omega))]
    cases j with
    | zero => rfl
    | succ j =>
      rw [List.getElem?_cons_succ, ih (by rw [List.length_drop]; omega) (by rw [List.length_drop]; omega),
        List.drop_drop, Nat.mul_succ, Nat.add_comm]

/-- Every group but the last is full, so there are ceil(tokens / 8) of them (R217). -/
theorem length_groupsFuel {fuel : Nat} {ts : List TokReg} (hfuel : ts.length ≤ fuel) :
    (groupsFuel fuel ts).length = (ts.length + 7) / 8 := by
  induction fuel generalizing ts with
  | zero =>
    have h0 : ts.length = 0 := by omega
    rw [h0]
    rfl
  | succ fuel ih =>
    by_cases hts : ts = []
    · rw [hts]
      rfl
    · have hpos := List.length_pos_iff.mpr hts
      rw [groupsFuel_succ fuel hts, List.length_cons, ih (by rw [List.length_drop]; omega), List.length_drop]
      omega

/-- The groups one after the other are the token sequence (R216). -/
theorem flatten_groupsFuel {fuel : Nat} {ts : List TokReg} (hfuel : ts.length ≤ fuel) :
    (groupsFuel fuel ts).flatten = ts := by
  induction fuel generalizing ts with
  | zero => exact (List.length_eq_zero_iff.mp (by omega)).symm
  | succ fuel ih =>
    by_cases hts : ts = []
    · rw [hts]
      rfl
    · have hpos := List.length_pos_iff.mpr hts
      rw [groupsFuel_succ fuel hts, List.flatten_cons, ih (by rw [List.length_drop]; omega), List.take_append_drop]

/-- The bits of slots without a token are 0 (R83). -/
theorem kindBit_controlByte_unused {ts : List TokReg} {k : Nat} (hts : ts.length ≤ k) (hk : k < 8) :
    kindBit (controlByte ts) k = false := by
  rw [controlByte, kindBit_controlByteFrom (by omega) hk, kindBit_zero]
  simp [hts]

/-- A token is one byte, and a back-reference one more (R93). -/
theorem length_flatMap_wire (ts : List TokReg) :
    (ts.flatMap TokReg.wire).length = ts.length + (ts.filter (·.kind)).length := by
  induction ts with
  | nil => rfl
  | cons t ts ih =>
    cases hk : t.kind <;> simp [TokReg.wire, hk, ih] <;> omega

/-- Groups have a control byte each, and their tokens' bytes (R81, R217). -/
theorem length_flatMap_groupBytes (gs : List (List TokReg)) :
    (gs.flatMap groupBytes).length = gs.length + (gs.flatten.flatMap TokReg.wire).length := by
  induction gs with
  | nil => rfl
  | cons g gs ih =>
    simp only [List.flatMap_cons, groupBytes, List.length_append, List.length_cons, ih, List.flatten_cons,
      List.flatMap_append]
    omega

end Sys2Proof
end

section
/-! PROOF. O4 and O5: where a framed stream's tokens stand, and its length. -/

namespace Sys2Proof

/-- Settles O4: group `k div 8` starts `k mod 8` tokens before token `k`, and its control byte is built of its
tokens' kinds. -/
theorem tokenKStandsInItsSlot : Obligations.TokenKStandsInItsSlot := by
  intro ts k t ht
  have hk := (List.getElem?_eq_some_iff.mp ht).1
  have hlen : ((ts.drop (8 * (k / 8))).take 8).length ≤ 8 := List.length_take_le 8 _
  have htok : ((ts.drop (8 * (k / 8))).take 8)[k % 8]? = some t := by
    rw [List.getElem?_take_of_lt (Nat.mod_lt k (by decide)), List.getElem?_drop, Nat.div_add_mod, ht]
  exact ⟨_, getElem?_groupsFuel le_rfl (by omega), htok, kindBit_controlByte hlen htok,
    fun s => kindBit_controlByte_unused⟩

/-- Settles O5: the groups' control bytes and the tokens' bytes, counted apart. -/
theorem framedStreamLength : Obligations.FramedStreamLength := by
  intro ts
  rw [frameTokens, length_flatMap_groupBytes, groupsOf, length_groupsFuel le_rfl, flatten_groupsFuel le_rfl,
    length_flatMap_wire, Nat.add_assoc]

end Sys2Proof
end

section
/-! SUPPORT. The framer's operations by their equations, and the step that a group's accepted byte makes
(spec/45_encoder.md R210 to R215). -/

namespace Sys2Proof.Machine

/-! ## Accept and Finish -/

/-- A token stored in a new group stands in slot 0, alone (R210, R212). -/
theorem storeTok_openGroup (tok : TokReg) (s : State) :
    storeTok tok (openGroup s) =
      { s with tok := s.tok.setIfInBounds 0 tok, c := if tok.kind then 0x80 else 0, n := 1 } := by
  have hbit : setKindBit 0 0 = 0x80 := by decide
  rw [← hbit]
  rfl

theorem exec_accept_of_empty (tok : TokReg) {s : State} (h : s.n.val = 0) :
    exec (.accept tok) s = .next (storeTok tok (openGroup s)) := by
  obtain ⟨-, ha⟩ | ⟨h8, -⟩ | ⟨h1, -⟩ := accept_cases tok s
  · rw [exec, execAccept, ha]
    rfl
  · omega
  · omega

theorem exec_accept_of_room (tok : TokReg) {s : State} (h1 : 1 ≤ s.n.val) (h8 : s.n.val < 8) :
    exec (.accept tok) s = .next (storeTok tok s) := by
  obtain ⟨h0, -⟩ | ⟨hfull, -⟩ | ⟨-, -, ha⟩ := accept_cases tok s
  · omega
  · omega
  · rw [exec, execAccept, ha]
    rfl

theorem exec_accept_of_full (tok : TokReg) {s : State} (h : s.n.val = 8) :
    exec (.accept tok) s = .next (setPhase (.cWrite s.c 0 (.accept tok)) s) := by
  obtain ⟨h0, -⟩ | ⟨-, ha⟩ | ⟨-, h8, -⟩ := accept_cases tok s
  · omega
  · rw [exec, execAccept, ha]
    rfl
  · omega

theorem exec_finish_of_empty {s : State} (h : s.n.val = 0) : exec .finish s = .next s := by
  obtain ⟨-, hf⟩ | ⟨h1, -⟩ := finish_cases s
  · rw [exec, execFinish, hf]
    rfl
  · omega

theorem exec_finish_of_tokens {s : State} (h : 1 ≤ s.n.val) :
    exec .finish s = .next (setPhase (.cWrite s.c 0 .finish) s) := by
  obtain ⟨h0, -⟩ | ⟨-, hf⟩ := finish_cases s
  · omega
  · rw [exec, execFinish, hf]
    rfl

/-! ## An accepted byte of a group -/

/-- The state after the channel accepted `b`: the byte is in the output, and `rest` is pending (R67, R215). -/
def outputAccepted (b : Byte) (rest : List Move) (s : State) : State :=
  { s with moves := rest, outTaken := s.outTaken ++ [b] }

theorem recordMove_output_ok {s : State} {b : Byte} (rest : List Move) (ho : s.phase.offers = some b) :
    recordMove s (.output .ok) rest = outputAccepted b rest s := by
  rw [recordMove, ho]
  rfl

section
variable {s : State} {b : Byte} {k : Nat} {site : FlushSite} {rest : List Move}

/-- An `Ok` to byte `k` of a group goes on in Flush after that byte (R213). -/
theorem step_groupByte (hp : s.phase = .cWrite b k site) (hm : s.moves = .output .ok :: rest) :
    step s = (flushOn k site (outputAccepted b rest s)).outcome keepNone := by
  have ho : s.phase.offers = some b := by rw [hp]; rfl
  have hu : (outputAccepted b rest s).phase = .cWrite b k site := hp
  have hf : fetch s (.output .ok) = .resume .writeOk := by simp only [fetch, fetchOutput, ho]
  rw [step_of_move hm, runMove, hf, recordMove_output_ok rest ho]
  simp only [resume, writeOk, hu]

/-- An `Ok` to a byte with another after it: that one is offered (R213). -/
theorem step_groupByte_more {b' : Byte} (hp : s.phase = .cWrite b k site) (hm : s.moves = .output .ok :: rest)
    (hmore : s.flushBytes[k + 1]? = some b') :
    step s = .next (setPhase (.cWrite b' (k + 1) site) (outputAccepted b rest s)) := by
  have hbytes : (outputAccepted b rest s).flushBytes[k + 1]? = some b' := hmore
  rw [step_groupByte hp hm, flushOn, hbytes]
  rfl

/-- An `Ok` to the last byte of the group: Flush returns to its caller (R210, R214). -/
theorem step_groupByte_last (hp : s.phase = .cWrite b k site) (hm : s.moves = .output .ok :: rest)
    (hlast : s.flushBytes.length = k + 1) :
    step s = (flushReturn site (outputAccepted b rest s)).outcome keepNone := by
  have hbytes : (outputAccepted b rest s).flushBytes[k + 1]? = none := List.getElem?_eq_none hlast.le
  rw [step_groupByte hp hm, flushOn, hbytes]

end

/-! ## A whole group -/

theorem run_succ_of_step {s t : State} (h : step s = .next t) (k : Nat) : core.run (k + 1) s = core.run k t := by
  have hcore : core.step s = .next t := h
  simp only [Host.Core.run, hcore]

/-- The bytes of the last group from byte `k` on, each answered `Ok`, are written, and the run ends (R213, R214). -/
theorem run_finish_from {bs : List Byte} {s : State} {b : Byte} {k : Nat} {rest : List Move}
    (hp : s.phase = .cWrite b k .finish) (hbytes : s.flushBytes.drop k = b :: bs)
    (hm : s.moves = List.replicate (bs.length + 1) (.output .ok) ++ rest) :
    core.run (bs.length + 1) s =
      .next (endRun { s with moves := rest, outTaken := s.outTaken ++ b :: bs }) := by
  induction bs generalizing s b k with
  | nil =>
    have hlast : s.flushBytes.length = k + 1 := by
      have hlen := congrArg List.length hbytes
      simp only [List.length_drop, List.length_singleton] at hlen
      omega
    exact run_succ_of_step (step_groupByte_last hp hm hlast) 0
  | cons b' bs ih =>
    have hafter : s.flushBytes.drop (k + 1) = b' :: bs := by rw [← List.drop_drop, hbytes]; rfl
    have hmore : s.flushBytes[k + 1]? = some b' := by rw [← List.head?_drop, hafter]; rfl
    rw [List.append_cons s.outTaken]
    exact (run_succ_of_step (step_groupByte_more hp hm hmore) _).trans (ih rfl hafter rfl)

end Sys2Proof.Machine
end

section
/-! PROOF. O40, O41 and O42: the framer. -/

namespace Sys2Proof.Machine

/-- Settles O42: Finish offers the control byte, and one step for each of the group's bytes follows. -/
theorem finishWritesTheWholeGroup : Obligations.FinishWritesTheWholeGroup := by
  intro s t rest hn ht hm
  rw [exec_finish_of_tokens hn] at ht
  cases ht
  rw [Nat.add_comm] at hm ⊢
  exact run_finish_from rfl rfl hm

/-- Settles O40: Accept by its three cases, and the return of its Flush. -/
theorem acceptStoresOrFlushesFirst : Obligations.AcceptStoresOrFlushesFirst := by
  intro tok s
  refine ⟨fun h0 => ?_, fun h1 h8 => ⟨Fin.ofNat 9 (s.n.val + 1), ?_, ?_⟩,
    fun h8 => exec_accept_of_full tok h8, fun b k rest hp hlast hm => ?_⟩
  · rw [exec_accept_of_empty tok h0, storeTok_openGroup]
  · exact Nat.mod_eq_of_lt (by omega)
  · exact exec_accept_of_room tok h1 h8
  · rw [step_groupByte_last hp hm hlast, flushReturn, storeTok_openGroup]
    rfl

/-- Settles O41: each operation by its equation, and the step of a byte with another after it. -/
theorem flushFinishAndEmitOfferTheirByte : Obligations.FlushFinishAndEmitOfferTheirByte := by
  intro s b site k psite
  refine ⟨fun h1 => ?_, exec_finish_of_tokens, exec_finish_of_empty, rfl, rfl, fun b' rest hp hmore hm => ?_⟩
  · rw [exec, execFlush, flush_eq (Nat.one_le_iff_ne_zero.mp h1)]
    rfl
  · exact step_groupByte_more hp hm hmore

end Sys2Proof.Machine
end

section
/-! SUPPORT. The deframer's operations by their equations, and the step that an accepted output byte makes
(spec/46_decoder.md R240, R243, R245). -/

namespace Sys2Proof.Machine

/-- A reference to a written cell within `filled` offers that cell's byte (R245, R246). -/
theorem copy_of_written {off b : Byte} {s : State} (lm1 : Byte) (hoff : off.toNat + 1 ≤ s.filled.val)
    (hread : s.ring.read (s.cursor - BitVec.ofNat 8 (off.toNat + 1)).toNat = some b) :
    copy off lm1 s =
      .stops (setPhase (.dWrite b (.copy (s.cursor - BitVec.ofNat 8 (off.toNat + 1)) lm1.toNat)) s) := by
  rw [← cursor_sub_distance] at hread ⊢
  rw [copy, if_neg (by omega), copyStep, hread]
  rfl

/-- A copy's step comes to the `OutWrite` of the byte it read (R245). -/
theorem copyStep_ends_iff {src : Byte} {left : Nat} {s t : State} :
    (copyStep src left s).Ends t ↔
      ∃ b, s.ring.read src.toNat = some b ∧ setPhase (.dWrite b (.copy src left)) s = t := by
  unfold copyStep
  cases s.ring.read src.toNat with
  | none => simp
  | some b => simp [put, emit_eq, waitPoint]

/-- An `Ok` to Put's byte: the byte is stored, and Put returns to its caller (R243). -/
theorem step_outputByte {s : State} {b : Byte} {site : PutSite} {rest : List Move} (hp : s.phase = .dWrite b site)
    (hm : s.moves = .output .ok :: rest) :
    step s = (putReturn site (storeOutput b (outputAccepted b rest s))).outcome keepNone := by
  have ho : s.phase.offers = some b := by rw [hp]; rfl
  have hu : (outputAccepted b rest s).phase = .dWrite b site := hp
  have hf : fetch s (.output .ok) = .resume .writeOk := by simp only [fetch, fetchOutput, ho]
  rw [step_of_move hm, runMove, hf, recordMove_output_ok rest ho]
  simp only [resume, writeOk, hu]

end Sys2Proof.Machine
end

section
/-! SUPPORT. Over a decompress run the ring holds the last output bytes (spec/46_decoder.md R249), and a copy reads them
at one distance (R245). -/

namespace Sys2Proof.Machine

/-! ## What the ring holds -/

/-- What `RingHoldsOutput` speaks of: the ring with its two registers, and the output (R249). -/
def outputSide (s : State) : Memory × Byte × Fin 257 × List Byte := (s.ring, s.cursor, s.filled, s.outTaken)

theorem RingHoldsOutput.of_outputSide_eq {s t : State} (h : RingHoldsOutput s) (ht : outputSide t = outputSide s) :
    RingHoldsOutput t := by
  simp only [outputSide, Prod.mk.injEq] at ht
  obtain ⟨hring, hcursor, hfilled, hout⟩ := ht
  exact ⟨by rw [hfilled, hout, h.filled_eq], by rw [hring, hcursor, hfilled, hout]; exact h.cells⟩

/-- A run starts with an empty output and `filled` 0 (R281). -/
theorem startRun_ringHoldsOutput (e : Engine) (s : State) : RingHoldsOutput (startRun e s) :=
  ⟨rfl, fun k hk => absurd hk (Nat.not_lt_zero k)⟩

/-- The byte accepted last is the newest of the output and of the ring (R243, R249). -/
theorem RingHoldsOutput.afterStoreOutput {s : State} (h : RingHoldsOutput s) (b : Byte) (rest : List Move) :
    RingHoldsOutput (storeOutput b (outputAccepted b rest s)) where
  filled_eq := by
    have hfilled := h.filled_eq
    simp only [storeOutput_filled, fillCount_val, storeOutput_outTaken, outputAccepted, List.length_append,
      List.length_singleton]
    omega
  cells k hk := by
    rw [storeOutput_filled, fillCount_val] at hk
    change k < min (s.filled.val + 1) 256 at hk
    change (s.ring.write s.cursor.toNat b).read (s.cursor + 1 - BitVec.ofNat 8 (k + 1)).toNat =
      (s.outTaken ++ [b]).reverse[k]?
    rw [Memory.read_write, List.reverse_concat]
    cases k with
    | zero => simp
    | succ k =>
      have hidx : s.cursor + 1 - BitVec.ofNat 8 (k + 1 + 1) = s.cursor - BitVec.ofNat 8 (k + 1) := by
        rw [BitVec.ofNat_add (k + 1) 1]
        bv_omega
      have hold : (s.cursor - BitVec.ofNat 8 (k + 1)).toNat ≠ s.cursor.toNat := by
        simp only [BitVec.toNat_sub, BitVec.toNat_ofNat]
        omega
      rw [hidx, if_neg hold, List.getElem?_cons_succ]
      exact h.cells k (by omega)

/-! ## Where a copy reads -/

/-- R245: `src` names the cell `off + 1` positions back, which is one of the `filled` cells before `cursor`. -/
def SourceAt (off : Nat) (src : Byte) (s : State) : Prop :=
  off < s.filled.val ∧ src = s.cursor - BitVec.ofNat 8 (off + 1)

/-- `src` and `cursor` advance together, so a copy keeps its distance (R245). -/
theorem SourceAt.afterStoreOutput {off : Nat} {src : Byte} {s : State} (h : SourceAt off src s) (b : Byte) :
    SourceAt off (src + 1) (storeOutput b s) := by
  obtain ⟨hwithin, rfl⟩ := h
  have hfilled := s.filled.isLt
  refine ⟨?_, ?_⟩
  · rw [storeOutput_filled, fillCount_val]
    omega
  · rw [storeOutput_cursor]
    bv_omega

section
variable {off : Nat} {src : Byte} {s : State}

theorem SourceAt.lt_length (hsrc : SourceAt off src s) (h : RingHoldsOutput s) : off < s.outTaken.length := by
  have hwithin := hsrc.1
  rw [h.filled_eq] at hwithin
  omega

/-- The byte a copy reads is the output's, `off + 1` positions back (R245, R249). -/
theorem SourceAt.read_eq (hsrc : SourceAt off src s) (h : RingHoldsOutput s) :
    s.ring.read src.toNat = s.outTaken[s.outTaken.length - (off + 1)]? := by
  rw [hsrc.2, h.cells off hsrc.1, List.getElem?_reverse (hsrc.lt_length h)]
  congr 1
  omega

theorem SourceAt.exists_read (hsrc : SourceAt off src s) (h : RingHoldsOutput s) :
    ∃ b, s.ring.read src.toNat = some b := by
  have hlen := hsrc.lt_length h
  rw [hsrc.read_eq h]
  exact ⟨_, List.getElem?_eq_getElem (by omega)⟩

/-- One step of a copy appends the byte it reads (R86, R245). -/
theorem SourceAt.copyBytes_succ {b : Byte} (hsrc : SourceAt off src s) (h : RingHoldsOutput s)
    (hread : s.ring.read src.toNat = some b) (r : Nat) :
    copyBytes (off + 1) (r + 1) s.outTaken = copyBytes (off + 1) r (s.outTaken ++ [b]) := by
  rw [hsrc.read_eq h] at hread
  rw [copyBytes, if_pos (Nat.succ_le_of_lt (hsrc.lt_length h)), hread]

end

/-- The first cell a reference reads (R245, R246). -/
theorem sourceAt_of_reference {off : Byte} {s : State} (hoff : off.toNat + 1 ≤ s.filled.val) :
    SourceAt off.toNat (s.cursor - BitVec.ofNat 8 (off.toNat + 1)) s := ⟨hoff, rfl⟩

/-! ## A whole copy -/

/-- The rest of a copy, with every byte answered `Ok`: its bytes are those `copyBytes` gives, and the next token is
asked for (R240, R245). -/
theorem run_copy_from {off left : Nat} {src b : Byte} {s : State} {rest : List Move}
    (hp : s.phase = .dWrite b (.copy src left)) (hring : RingHoldsOutput s) (hsrc : SourceAt off src s)
    (hread : s.ring.read src.toNat = some b) (hslot : s.slot.val < 8)
    (hm : s.moves = List.replicate (left + 1) (.output .ok) ++ rest) :
    ∃ u, core.run (left + 1) s = .next u ∧ copyBytes (off + 1) (left + 1) s.outTaken = some u.outTaken ∧
      u.phase = .dToken ∧ u.slot.val = s.slot.val + 1 ∧ u.moves = rest ∧ u.inTaken = s.inTaken ∧
      RingHoldsOutput u := by
  induction left generalizing s src b with
  | zero =>
    have hstep := step_outputByte hp hm
    have hcopied := hsrc.copyBytes_succ hring hread 0
    exact ⟨_, run_succ_of_step hstep 0, hcopied, rfl, nextSlot_val hslot, rfl, rfl,
      (hring.afterStoreOutput b rest).of_outputSide_eq rfl⟩
  | succ left ih =>
    have hring' := hring.afterStoreOutput b (List.replicate (left + 1) (.output .ok) ++ rest)
    have hsrc' := SourceAt.afterStoreOutput
      (s := outputAccepted b (List.replicate (left + 1) (.output .ok) ++ rest) s) hsrc b
    obtain ⟨b', hread'⟩ := hsrc'.exists_read hring'
    have hstep := (step_outputByte hp hm).trans
      (Ran.outcome_keepNone_eq_next.mpr (copyStep_ends_iff.mpr ⟨b', hread', rfl⟩))
    rw [run_succ_of_step hstep, hsrc.copyBytes_succ hring hread]
    exact ih rfl (hring'.of_outputSide_eq rfl) hsrc' hread' hslot rfl

/-! ## The steps of a decompress run -/

/-- After its byte is stored Put's caller moves no byte (R240, R245). -/
theorem putReturn_keeps_outputSide (site : PutSite) (s : State) : (putReturn site s).Keeps outputSide s := by
  rcases site with _ | ⟨src, _ | left⟩
  · exact Ran.keeps_stops rfl
  · exact Ran.keeps_stops rfl
  · exact Ran.keeps_ofExcept fun _ _ => Ran.keeps_stops rfl

/-- The driver comes to no program point of the deframer (R271, R284). -/
theorem DriverEnds.engine_ne_decompress {s t : State} (h : DriverEnds s t) :
    t.phase.engine ≠ some .decompress := by
  induction h with
  | waits | ends | offersLast | offersFull => rintro ⟨⟩
  | opens _ _ _ _ _ ih | stores _ _ _ _ _ _ ih => exact ih

/-- No answer leads into a decompress run from outside one (R270, R284). -/
theorem AnswerStep.engine_decompress {u t : State} {m : Move} (h : AnswerStep u m (.next t))
    (ht : t.phase.engine = some .decompress) : u.phase.engine = some .decompress := by
  generalize ho : Host.Outcome.next t = o at h
  have hends : ∀ {r : Ran Unit}, Host.Outcome.next t = r.outcome keepNone → r.Ends t :=
    fun hr => Ran.outcome_keepNone_eq_next.mp hr.symm
  cases h with
  | fillByte | fillEnd =>
    have hrun := driverEnds_of_compressFrom (hends ho)
    exact absurd ht hrun.engine_ne_decompress
  | groupByte =>
    obtain ⟨b, -, rfl⟩ | ⟨tok, -, hrun⟩ | ⟨-, rfl⟩ := flushOn_ends_cases (hends ho)
    · cases ht
    · exact absurd ht hrun.engine_ne_decompress
    · cases ht
  | cleanEnd | truncated | readError | writeError => cases ho; cases ht
  | ctrlByte hp | literal hp | offsetByte hp => rcases hp with hp | hp <;> rw [hp] <;> rfl
  | lengthByte hp | outputByte hp => rw [hp]; rfl

/-- A step into a decompress run from outside one starts that run (R281). -/
theorem startRun_of_step {s t : State} (h : step s = .next t) (hs : s.phase.engine ≠ some .decompress)
    (ht : t.phase.engine = some .decompress) : ∃ u, t = setPhase .dToken (startRun .decompress u) := by
  obtain rfl | ⟨m, rest, -, ha | hh | ⟨f, rfl⟩⟩ := step_next_cases h
  · exact absurd ht hs
  · exact absurd (by simpa using ha.engine_decompress ht) hs
  · cases hh with
    | ignored | reads | setsMode => exact absurd (by simpa using ht) hs
    | startsCompress _ run => exact absurd ht run.engine_ne_decompress
    | startsDecompress => exact ⟨_, rfl⟩
  · cases ht

/-- What a step of a decompress run is: a reset, or a wait, a host access or the answer to the outstanding transaction
(R270, R283, R340). -/
theorem step_of_decompress_cases {s t : State} (hi : Inv s) (hs : s.phase.engine = some .decompress)
    (h : step s = .next t) :
    t.phase = .idle ∨ (∃ ms w, t = { s with moves := ms, hostData := w }) ∨
      ∃ m rest, AnswerStep (recordMove s m rest) m (.next t) := by
  by_cases hr : ∃ f rest, s.moves = .reset f :: rest
  · obtain ⟨f, rest, hm⟩ := hr
    cases (step_of_move hm).symm.trans h
    exact .inl rfl
  · obtain rfl | ⟨a, rest, w, -, rfl⟩ | ⟨m, rest, -, ha⟩ :=
      step_of_busy_cases (runState_busy_of_engine hi hs) h (by simpa using hr)
    · exact .inr (.inl ⟨t.moves, t.hostData, rfl⟩)
    · exact .inr (.inl ⟨rest, w, rfl⟩)
    · exact .inr (.inr ⟨m, rest, ha⟩)

/-- The answers to a decompress run's transactions keep the ring's bytes those of the output (R249). -/
theorem RingHoldsOutput.answered {s t : State} {m : Move} {rest : List Move} (h : RingHoldsOutput s)
    (ha : AnswerStep (recordMove s m rest) m (.next t)) (hs : s.phase.engine = some .decompress)
    (ht : t.phase.engine = some .decompress) : RingHoldsOutput t := by
  generalize hu : recordMove s m rest = u at ha
  have hphase : u.phase = s.phase := hu ▸ recordMove_phase s m rest
  rw [← hphase] at hs
  generalize ho : Host.Outcome.next t = o at ha
  cases ha with
  | fillByte hp | fillEnd hp | groupByte hp => rw [hp] at hs; cases hs
  | cleanEnd | truncated | readError | writeError => cases ho; cases ht
  | ctrlByte | literal | offsetByte => cases ho; exact hu ▸ h.of_outputSide_eq rfl
  | lengthByte =>
    have hends := Ran.outcome_keepNone_eq_next.mp ho.symm
    obtain ⟨-, hc⟩ | ⟨-, b, -, hc⟩ | ⟨-, -, hc⟩ := copy_cases _ _ u <;> rw [hc] at hends
    · cases hends
      cases ht
    · cases hends
      exact hu ▸ h.of_outputSide_eq rfl
    · exact absurd hends (Ran.not_ends_fault _ t)
  | outputByte hp =>
    rw [recordMove_output_ok rest (by rw [← hphase, hp]; rfl)] at hu
    subst hu
    have hends := Ran.outcome_keepNone_eq_next.mp ho.symm
    exact (h.afterStoreOutput _ rest).of_outputSide_eq (putReturn_keeps_outputSide _ _ t hends)

end Sys2Proof.Machine
end

section
/-! PROOF. O24, O25, O45, O46, O48, O49 and O50: the deframer. -/

namespace Sys2Proof.Machine

/-- Settles O49: the copy offers its first byte, and one step for each of its bytes follows. -/
theorem copyRepeatsTheOutput : Obligations.CopyRepeatsTheOutput := by
  intro off lm1 s t rest hring hoff hslot hm ht
  have hsrc := sourceAt_of_reference hoff
  obtain ⟨b, hread⟩ := hsrc.exists_read hring
  have hends := Ran.outcome_keepNone_eq_next.mp ht
  rw [copy_of_written lm1 hoff hread] at hends
  cases hends
  exact run_copy_from rfl (hring.of_outputSide_eq rfl) hsrc hread hslot hm

/-- Settles O50: a step into a decompress run starts it with an empty ring, and a step inside it stores at most the
byte it outputs. -/
theorem ringHoldsTheLastOutput : Obligations.RingHoldsTheLastOutput := by
  intro s t hi hring h ht
  by_cases hs : s.phase.engine = some .decompress
  · obtain hidle | ⟨ms, w, rfl⟩ | ⟨m, rest, ha⟩ := step_of_decompress_cases hi hs h
    · rw [hidle] at ht
      cases ht
    · exact (hring hs).of_outputSide_eq rfl
    · exact (hring hs).answered ha hs ht
  · obtain ⟨u, rfl⟩ := startRun_of_step h hs ht
    exact (startRun_ringHoldsOutput .decompress u).of_outputSide_eq rfl

/-- Settles O24: of the ways to answer `End`, the program point leaves the truncation. -/
theorem endInsideATokenIsTruncated : Obligations.EndInsideATokenIsTruncated := by
  intro s site rest hp hm
  have ha := answerStep_input hm (by rw [hp]; rfl)
  generalize step s = o at ha
  cases ha with
  | truncated => exact ⟨_, rfl, rfl, rfl, rfl, rfl, rfl⟩
  | fillEnd h | cleanEnd h => cases hp.symm.trans h

/-- Settles O25: of the ways to answer `End`, the program point leaves the clean end. -/
theorem endAtATokenStartIsClean : Obligations.EndAtATokenStartIsClean := by
  intro s rest hp hm
  have ha := answerStep_input hm (by rw [hp]; rfl)
  generalize step s = o at ha
  cases ha with
  | cleanEnd => rfl
  | fillEnd h | truncated h => cases hp.symm.trans h

/-- Settles O45: each of these operations is one record update. -/
theorem decoderFormsReachTheirTransaction : Obligations.DecoderFormsReachTheirTransaction :=
  fun _ _ _ _ => ⟨rfl, rfl, rfl, rfl, rfl, rfl⟩

/-- Settles O46: the step of Put's byte, returning to a literal. -/
theorem acceptedLiteralIsStored : Obligations.AcceptedLiteralIsStored := by
  intro s b rest hp hslot hm
  exact ⟨_, _, _, fillCount_val s.filled, nextSlot_val hslot, fun a => Memory.read_write s.ring _ a b,
    step_outputByte hp hm⟩

/-- Settles O48: Copy and BREF are the same operation. -/
theorem referenceOffersItsFirstByte : Obligations.ReferenceOffersItsFirstByte := by
  intro off lm1 b s hoff hread i hi
  have hcopy := congrArg (Ran.outcome · keepNone) (copy_of_written lm1 hoff hread)
  rcases hi with rfl | rfl <;> exact hcopy

end Sys2Proof.Machine
end

section
/-! SUPPORT. The bytes a decompress run has consumed, read form by form from the start of the stream, and what those
forms stand for (spec/30_encoding.md R80, R81, R86). -/

namespace Sys2Proof.Machine

/-! ## A stream read from its start -/

/-- The bytes `bs` are the forms `is` and leave the deframer at `p`: a stream that goes on from there is `is` and the
forms of what follows. After a control byte something has to follow (`needed`; R81). -/
def ReadsUpTo (bs : List Byte) (is : List Instr) (p : WirePos) (needed : Prop) : Prop :=
  ∀ rest is', (needed → rest ≠ []) → ReadsAs p rest is' → ReadsAs WirePos.start (bs ++ rest) (is ++ is')

theorem readsUpTo_start : ReadsUpTo [] [] WirePos.start False := fun _ _ _ h => h

theorem ReadsUpTo.append {bs form : List Byte} {is : List Instr} {i : Instr} {p : WirePos}
    (h : ReadsUpTo bs is p True) (he : encode i = .wire form) (hs : i.standsAt p = true) :
    ReadsUpTo (bs ++ form) (is ++ [i]) (p.after i) (p.atBoundary = true) := by
  intro rest is' hne hrest
  rw [List.append_assoc, List.append_assoc]
  refine h (form ++ rest) (i :: is') (fun _ => ?_) (readsAs_cons he hs hne hrest)
  exact List.append_ne_nil_of_left_ne_nil (encode_wire_ne_nil he) rest

/-- A stream may end where no token has to follow (R247). -/
theorem ReadsUpTo.decodeStream {bs : List Byte} {is : List Instr} {p : WirePos} (h : ReadsUpTo bs is p False) :
    decodeStream bs = .ok is := by
  have hend := h [] [] False.elim (readsAs_nil p)
  rw [List.append_nil, List.append_nil] at hend
  exact hend bs.length le_rfl

/-! ## What the forms stand for -/

/-- One form more (R82, R84, R86). -/
theorem expandForms_append {out out' : List Byte} {is : List Instr} (i : Instr) (h : expandForms out is = some out') :
    expandForms out (is ++ [i]) = expandForm out' i := by
  induction is generalizing out with
  | nil =>
    cases h
    rw [List.nil_append, expandForms]
    cases expandForm out' i <;> rfl
  | cons j is ih =>
    simp only [List.cons_append, expandForms] at h ⊢
    cases hj : expandForm out j with
    | none => simp [hj] at h
    | some out1 => exact ih (by simpa only [hj] using h)

/-- The bytes `bs` leave the deframer at `p`, and their forms stand for `out` (R86). -/
def StandsFor (bs : List Byte) (p : WirePos) (needed : Prop) (out : Option (List Byte)) : Prop :=
  ∃ is, ReadsUpTo bs is p needed ∧ expandForms [] is = out

section
variable {bs out : List Byte} {p : WirePos} {needed : Prop}

theorem standsFor_start : StandsFor [] WirePos.start False (some []) := ⟨[], readsUpTo_start, rfl⟩

/-- What a stream stands for does not need it to end. -/
theorem StandsFor.goesOn (h : StandsFor bs p needed (some out)) : StandsFor bs p True (some out) := by
  obtain ⟨is, hread, hexp⟩ := h
  exact ⟨is, fun rest is' hne => hread rest is' fun _ => hne trivial, hexp⟩

/-- The control byte of a group stands for no output, and a token has to follow it (R81, R82). -/
theorem StandsFor.ctrlByte (h : StandsFor bs p True (some out)) (k : Byte) (hp : p.slot.val = 8) :
    StandsFor (bs ++ [k]) ⟨0, k⟩ True (some out) := by
  obtain ⟨is, hread, hexp⟩ := h
  have hs : (Instr.ctrlByte k).standsAt p = true := decide_eq_true hp
  exact StandsFor.goesOn ⟨_, hread.append rfl hs, expandForms_append (.ctrlByte k) hexp⟩

/-- A token inside a group (R84 to R86). -/
theorem StandsFor.token {form : List Byte} {i : Instr} (h : StandsFor bs p True (some out))
    (he : encode i = .wire form) (hs : i.standsAt p = true) (hp : p.slot.val ≠ 8) :
    StandsFor (bs ++ form) (p.after i) False (expandForm out i) := by
  obtain ⟨is, hread, hexp⟩ := h
  refine ⟨_, fun rest is' _ => hread.append he hs rest is' fun hb => ?_, expandForms_append i hexp⟩
  exact absurd (of_decide_eq_true hb) hp

theorem StandsFor.literal (h : StandsFor bs p True (some out)) (v : Byte) (hp : p.slot.val ≠ 8)
    (hk : kindBit p.ctl p.slot.val = false) : StandsFor (bs ++ [v]) (p.after (.lit v)) False (some (out ++ [v])) :=
  h.token (i := .lit v) rfl (by simp [Instr.standsAt, WirePos.atBoundary, hp, hk]) hp

theorem StandsFor.reference (h : StandsFor bs p True (some out)) (off lm1 : Byte) (hp : p.slot.val ≠ 8)
    (hk : kindBit p.ctl p.slot.val = true) :
    StandsFor (bs ++ [off, lm1]) (p.after (.bref off lm1)) False (expandForm out (.bref off lm1)) :=
  h.token rfl (by simp [Instr.standsAt, WirePos.atBoundary, hp, hk]) hp

end

end Sys2Proof.Machine
end

section
/-! SUPPORT. Along a decompress run, what the bytes consumed stand for is the output and what the token in progress has
still to add to it (spec/46_decoder.md R240, R243, R245, R248). -/

namespace Sys2Proof.Machine

/-- The deframer's place once the token in progress has ended (R240). -/
def placeAfterToken (s : State) : WirePos := ⟨nextSlot s.slot, s.ctl⟩

/-- How much of its input a decompress run has turned into output, by its program point: all of it at the start of a
token; all but the form in progress in NeedByte; and while a byte is offered, that byte and the rest of its copy are
still owed. -/
def DecodedSoFar (s : State) : Prop :=
  match s.phase with
  | .dToken => StandsFor s.inTaken s.wirePos False (some s.outTaken)
  | .dNeed .firstByte => StandsFor s.inTaken s.wirePos True (some s.outTaken)
  | .dNeed (.lengthByte off) =>
    ∃ bs, s.inTaken = bs ++ [off] ∧ StandsFor bs s.wirePos True (some s.outTaken)
  | .dWrite b .literal => StandsFor s.inTaken (placeAfterToken s) False (some (s.outTaken ++ [b]))
  | .dWrite b (.copy src left) =>
    ∃ off, SourceAt off src s ∧
      StandsFor s.inTaken (placeAfterToken s) False (copyBytes (off + 1) left (s.outTaken ++ [b]))
  | .done => StandsFor s.inTaken s.wirePos False (some s.outTaken)
  | .idle => True
  | .error => True
  | .cRead => False
  | .cWrite _ _ _ => False

/-- The definition at a known program point. -/
theorem decodedSoFar_of_phase {s : State} {p : Phase} (hp : s.phase = p) :
    DecodedSoFar s = DecodedSoFar (setPhase p s) := by
  subst hp
  rfl

/-- Where a token's first byte is awaited, what was consumed before it is all output (R240, R248). -/
theorem DecodedSoFar.firstByte {s : State} (h : DecodedSoFar s) (hp : s.phase = .dToken ∨ s.phase = .dNeed .firstByte) :
    StandsFor s.inTaken s.wirePos True (some s.outTaken) := by
  obtain hp | hp := hp <;> rw [decodedSoFar_of_phase hp] at h
  · exact StandsFor.goesOn h
  · exact h

/-- A reference has been read whole, and its copy begins or ends the run in ERROR (R245, R246). -/
theorem decodedSoFar_copy {u t : State} {off lm1 : Byte} (ht : (copy off lm1 u).Ends t) (hring : RingHoldsOutput u)
    (h : StandsFor u.inTaken (placeAfterToken u) False (expandForm u.outTaken (.bref off lm1))) : DecodedSoFar t := by
  obtain ⟨-, hc⟩ | ⟨hoff, b, hread, hc⟩ | ⟨-, -, hc⟩ := copy_cases off lm1 u <;> rw [hc] at ht
  · cases ht
    exact trivial
  · cases ht
    rw [cursor_sub_distance] at hread ⊢
    have hsrc := sourceAt_of_reference hoff
    rw [expandForm, hsrc.copyBytes_succ hring hread] at h
    exact ⟨off.toNat, hsrc, h⟩
  · exact absurd ht (Ran.not_ends_fault _ t)

/-- The byte offered has been accepted: its token ends, or its copy goes on (R240, R243, R245). -/
theorem decodedSoFar_putReturn {s t : State} {b : Byte} {site : PutSite} {rest : List Move}
    (hp : s.phase = .dWrite b site) (h : DecodedSoFar s) (hring : RingHoldsOutput s)
    (ht : (putReturn site (storeOutput b (outputAccepted b rest s))).Ends t) : DecodedSoFar t := by
  rw [decodedSoFar_of_phase hp] at h
  rcases site with _ | ⟨src, _ | left⟩
  · cases ht
    exact h
  · cases ht
    obtain ⟨off, -, h⟩ := h
    exact h
  · obtain ⟨off, hsrc, h⟩ := h
    obtain ⟨b', hread, rfl⟩ := copyStep_ends_iff.mp ht
    have hsrc' := SourceAt.afterStoreOutput (s := outputAccepted b rest s) hsrc b
    have hnext := hsrc'.copyBytes_succ (hring.afterStoreOutput b rest) hread left
    exact ⟨off, hsrc', hnext ▸ h⟩

/-- Each answer moves the run on by the byte it delivers or accepts. -/
theorem DecodedSoFar.answered {s t : State} {m : Move} {rest : List Move} (h : DecodedSoFar s) (hi : Inv s)
    (hring : RingHoldsOutput s) (ha : AnswerStep (recordMove s m rest) m (.next t)) : DecodedSoFar t := by
  generalize hu : recordMove s m rest = u at ha
  have hphase : u.phase = s.phase := hu ▸ recordMove_phase s m rest
  generalize ho : Host.Outcome.next t = o at ha
  have hends : ∀ {r : Ran Unit}, Host.Outcome.next t = r.outcome keepNone → r.Ends t :=
    fun hr => Ran.outcome_keepNone_eq_next.mp hr.symm
  cases ha with
  | fillByte hp | fillEnd hp | groupByte hp =>
    rw [decodedSoFar_of_phase (hphase.symm.trans hp)] at h
    exact h.elim
  | ctrlByte hp hs =>
    cases ho
    subst hu
    exact (h.firstByte hp).ctrlByte _ hs
  | literal hp hs hk =>
    cases ho
    subst hu
    exact (h.firstByte hp).literal _ hs hk
  | offsetByte hp =>
    cases ho
    subst hu
    exact ⟨s.inTaken, rfl, h.firstByte hp⟩
  | @lengthByte off lm1 hp =>
    have hps := hphase.symm.trans hp
    subst hu
    obtain ⟨hsite, -⟩ | ⟨_, -, hslot, hk⟩ := (hi.decompress (by rw [hps]; rfl)).needing _ hps
    · cases hsite
    · rw [decodedSoFar_of_phase hps] at h
      obtain ⟨bs, hbs, h⟩ := h
      have hform := h.reference off lm1 (Nat.ne_of_lt hslot) hk
      rw [List.append_cons, ← hbs] at hform
      exact decodedSoFar_copy (hends ho) (hring.of_outputSide_eq rfl) hform
  | cleanEnd hp =>
    have hps := hphase.symm.trans hp
    cases ho
    subst hu
    rw [decodedSoFar_of_phase hps] at h
    exact h
  | truncated | readError | writeError => cases ho; exact trivial
  | outputByte hp =>
    have hps := hphase.symm.trans hp
    rw [recordMove_output_ok rest (by rw [hps]; rfl)] at hu
    subst hu
    exact decodedSoFar_putReturn hps h hring (hends ho)

/-! ## Along a run -/

/-- What every state of a decompress run meets. -/
structure DecompressRunOk (s : State) : Prop where
  inv : Inv s
  ring : s.phase.engine = some .decompress → RingHoldsOutput s
  decoded : DecodedSoFar s

/-- While the run is in progress it is at a program point of the deframer (R284). -/
theorem DecompressRunOk.engine_of_busy {s : State} (h : DecompressRunOk s) (busy : s.runState = .busy) :
    s.phase.engine = some .decompress := by
  have hd := h.decoded
  rw [h.inv.status.state_of_phase] at busy
  cases hp : s.phase with
  | dToken | dNeed | dWrite => rfl
  | idle | done | error => rw [hp] at busy; cases busy
  | cRead | cWrite =>
    rw [decodedSoFar_of_phase hp] at hd
    exact hd.elim

theorem decompressRunOk_start {s t : State} (hi : Inv s) (ready : s.runState ≠ .busy)
    (h : exec (.cmdDecompress 0) s = .next t) : DecompressRunOk t := by
  cases (if_neg ready : exec (.cmdDecompress 0) s = _).symm.trans h
  exact
    { inv := (startRun_deframerOk hi.memories).inv_token
      ring := fun _ => (startRun_ringHoldsOutput .decompress s).of_outputSide_eq rfl
      decoded := standsFor_start }

theorem DecompressRunOk.step {s t : State} (h : DecompressRunOk s) (busy : s.runState = .busy)
    (hst : step s = .next t) : DecompressRunOk t where
  inv := stepKeepsInv s t h.inv hst
  ring := ringHoldsTheLastOutput s t h.inv h.ring hst
  decoded := by
    have he := h.engine_of_busy busy
    obtain hidle | ⟨ms, w, rfl⟩ | ⟨m, rest, ha⟩ := step_of_decompress_cases h.inv he hst
    · rw [decodedSoFar_of_phase hidle]
      exact trivial
    · exact h.decoded
    · exact h.decoded.answered h.inv (h.ring he) ha

theorem decompressRunOk_of_runOf {t : State} (h : RunOf .decompress t) : DecompressRunOk t := by
  induction h with
  | start s t inv ready run => exact decompressRunOk_start inv ready run
  | step s t _ busy next ih => exact ih.step busy next

end Sys2Proof.Machine
end

section
/-! PROOF. O57: a decompress run decodes its input. -/

namespace Sys2Proof.Machine

/-- Settles O57: at DONE everything consumed has been turned into output, and no token has to follow. -/
theorem decompressRunDecodesItsInput : Obligations.DecompressRunDecodesItsInput := by
  intro t hrun hdone
  have hok := decompressRunOk_of_runOf hrun
  have hp : t.phase = .done := by
    rw [hok.inv.status.state_of_phase] at hdone
    cases hp : t.phase with
    | done => rfl
    | idle | cRead | cWrite | dToken | dNeed | dWrite | error => rw [hp] at hdone; cases hdone
  have hdecoded := hok.decoded
  rw [decodedSoFar_of_phase hp] at hdecoded
  obtain ⟨is, hread, hexp⟩ := hdecoded
  exact ⟨is, hread.decodeStream, hexp⟩

end Sys2Proof.Machine
end

section
/-! SUPPORT. A compress run seen from the tokens it makes: what Policy returns, and where the driver and a group's last
byte come to (spec/44_match_policy.md R190; spec/45_encoder.md R210 to R214; spec/47_driver_and_host.md R271). -/

namespace Sys2Proof.Machine

/-! ## One token -/

/-- What Policy returns: the literal after Shift(1), or the reference after Shift(len), as its test says (R190). -/
theorem policy_eq_returned_iff {o : Cursor} {len : Nat} {s u : State} {tok : TokReg} :
    policy o len s = .returned tok u ↔ ∃ s0 lit, s.laByte 0 = some s0 ∧ choosesLiteral len s0 s = .ok lit ∧
      ((lit = true ∧ tok = literalToken s0 s ∧ ∃ v, shiftWindow 1 s = .ok v ∧ u = { v with draws := s.draws + 1 }) ∨
        (lit = false ∧ tok = referenceToken o len s ∧ shiftWindow len s = .ok u)) := by
  unfold policy
  cases h0 : s.laByte 0 with
  | none => simp
  | some s0 =>
    cases hlit : choosesLiteral len s0 s with
    | error f => simp [hlit]
    | ok lit =>
      cases lit with
      | true => cases hv : shiftWindow 1 s <;> simp [hlit, eq_comm]
      | false => cases hv : shiftWindow len s <;> simp [hlit, eq_comm]

/-- A token is made of the table just built and the pair Search finds with it (R271, R273). -/
theorem produceToken_eq_returned_iff {s u : State} {tok : TokReg} :
    produceToken s = .returned tok u ↔ ∃ t o len, buildEntries s.laByte s.laSize s.t = .ok t ∧
      findMatch { s with t := t } = .ok (o, len) ∧ policy o len { s with t := t } = .returned tok u := by
  unfold produceToken buildTable search
  cases ht : buildEntries s.laByte s.laSize s.t with
  | error f => simp
  | ok t =>
    cases hr : findMatch { s with t := t } with
    | error f => simp [hr]
    | ok r => simp [hr, Prod.ext_iff]

/-- Making a token leaves the group as it was (R273). -/
theorem produceToken_keeps_group {s u : State} {tok : TokReg} (made : produceToken s = .returned tok u) :
    u.n = s.n ∧ u.tok = s.tok := by
  obtain ⟨_, _, _, _, _, -, hm⟩ | ⟨f, hm⟩ := produceToken_cases s
  · cases hm.symm.trans made
    exact ⟨rfl, rfl⟩
  · cases hm.symm.trans made

/-- Making a token moves no byte of a stream and leaves everything outside the engine as it was (R273). -/
theorem produceToken_outsideCompress {s u : State} {tok : TokReg} (made : produceToken s = .returned tok u) :
    outsideCompress u = outsideCompress s :=
  produceToken_keeps s u (made ▸ rfl)

/-! ## Where the driver comes to -/

/-- The three places the driver comes to (R271). -/
theorem DriverEnds.phase_cases {s t : State} (h : DriverEnds s t) :
    t.phase = .cRead ∨ (∃ b site, t.phase = .cWrite b 0 site) ∨ (t.phase = .done ∧ t.runState = .done) := by
  induction h with
  | waits => exact .inl rfl
  | ends => exact .inr (.inr ⟨rfl, rfl⟩)
  | offersLast | offersFull => exact .inr (.inl ⟨_, _, rfl⟩)
  | opens _ _ _ _ _ ih | stores _ _ _ _ _ _ ih => exact ih

/-- The driver ends the run on its own only after `End`, with no token stored (R214, R271). -/
theorem DriverEnds.of_done {s t : State} (h : DriverEnds s t) (hd : t.phase = .done) :
    s.eofSeen = true ∧ s.n.val = 0 := by
  induction h with
  | waits | offersLast | offersFull => cases hd
  | ends _ eof empty => exact ⟨eof, empty⟩
  | opens _ _ made first _ ih =>
    have heof := congrArg (fun part => part.2.2) (produceToken_inputSide made)
    rw [(produceToken_keeps_group made).1] at first
    exact ⟨heof.symm.trans (ih hd).1, first⟩
  | stores _ _ _ _ room _ ih =>
    have hn := (ih hd).2
    rw [storeTok_n, Fin.val_ofNat, Nat.mod_eq_of_lt (by omega)] at hn
    cases hn

/-- After byte `k` of a group the next one is offered, or it was the last one and Flush returns (R213). -/
theorem flushOn_ends_iff {k : Nat} {site : FlushSite} {s t : State} :
    (flushOn k site s).Ends t ↔
      (∃ b, s.flushBytes[k + 1]? = some b ∧ setPhase (.cWrite b (k + 1) site) s = t) ∨
      (s.flushBytes.length ≤ k + 1 ∧ (flushReturn site s).Ends t) := by
  unfold flushOn
  cases hb : s.flushBytes[k + 1]? with
  | none =>
    have hlast : s.flushBytes.length ≤ k + 1 := List.getElem?_eq_none_iff.mp hb
    simp [hlast]
  | some b =>
    have hmore : ¬ s.flushBytes.length ≤ k + 1 :=
      (List.getElem?_eq_some_iff.mp hb).1.not_ge
    simp [hmore, emit_eq, waitPoint]

end Sys2Proof.Machine
end

section
/-! SUPPORT. The window over a compress run: it holds the input's last coded bytes and the bytes still to code, and a
token that is made stands for the input's next bytes (spec/41_window.md R131, R135; spec/43_search.md R177;
spec/44_match_policy.md R193, R194; spec/30_encoding.md R86). -/

namespace Sys2Proof.Machine

/-! ## The window holds the input -/

/-- After `k` coded bytes of the input: the lookahead is the rest of it, and the dictionary its last `min(k, 256)` coded
bytes (R24, R131, R135). -/
structure WindowHoldsInput (s : State) (k : Nat) : Prop where
  taken : s.inTaken.length = k + s.laSize
  dict : s.dictSize = min k 256
  cells : ∀ q, q < s.dictSize + s.laSize → s.textByte q = s.inTaken[k - s.dictSize + q]?

/-- A run starts with nothing consumed and an empty window (R281). -/
theorem startRun_windowHoldsInput (e : Engine) (s : State) : WindowHoldsInput (startRun e s) 0 where
  taken := by simp
  dict := by simp
  cells := by simp

section
variable {s : State} {k : Nat}

theorem WindowHoldsInput.le_length (h : WindowHoldsInput s k) : k ≤ s.inTaken.length :=
  h.taken ▸ Nat.le_add_right k s.laSize

/-- Lookahead byte `q` is the input's byte `k + q`. -/
theorem WindowHoldsInput.laByte_eq (h : WindowHoldsInput s k) {q : Nat} (hq : q < s.laSize) :
    s.laByte q = s.inTaken[k + q]? := by
  have hle : s.dictSize ≤ k := h.dict ▸ Nat.min_le_left k 256
  rw [laByte_eq_textByte, h.cells _ (by omega)]
  congr 1
  omega

/-- Fill's byte joins the input and the lookahead (R131). -/
theorem WindowHoldsInput.afterStoreInput (h : WindowHoldsInput s k) (hw : WindowOk s) (room : s.laSize < 256) (b : Byte)
    (rest : List Move) : WindowHoldsInput (storeInput b (recordMove s (.input (.byte b)) rest)) k := by
  have hla : (storeInput b (recordMove s (.input (.byte b)) rest)).laSize = s.laSize + 1 :=
    storeInput_laSize (s := recordMove s (.input (.byte b)) rest) b room
  have hdict : s.dictSize ≤ k := h.dict ▸ Nat.min_le_left k 256
  have htaken := h.taken
  refine ⟨?_, h.dict, fun q hq => ?_⟩
  · rw [hla]
    exact (List.length_append ..).trans (by rw [htaken]; rfl)
  · rw [hla] at hq
    change q < s.dictSize + (s.laSize + 1) at hq
    change (s.bf.write (mask s.laHd) b).read (mask (s.dictTl + BitVec.ofNat 64 q)) =
      (s.inTaken ++ [b])[k - s.dictSize + q]?
    rw [Memory.read_write]
    obtain rfl | hold : q = s.dictSize + s.laSize ∨ q < s.dictSize + s.laSize := by omega
    · have hlast : k - s.dictSize + (s.dictSize + s.laSize) = s.inTaken.length := by omega
      rw [← laHd_eq_dictTl_add, if_pos rfl, hlast, List.getElem?_concat_length]
    · rw [if_neg (mask_live_ne_mask_laHd hw room hold), List.getElem?_append_left (by omega)]
      exact h.cells q hold

/-- Shift(n) makes the next `n` bytes of the input coded ones (R135). -/
theorem WindowHoldsInput.afterShift {n : Nat} {t : State} (h : WindowHoldsInput s k) (hw : WindowOk s)
    (ht : shiftWindow n s = .ok t) : WindowHoldsInput t (k + n) := by
  have hla := shiftWindow_laSize ht
  have hdict := shiftWindow_dictSize_eq_min ht hw
  have hsize := shiftWindow_dictSize ht hw
  have htext := shiftWindow_textByte ht
  obtain ⟨⟨-, hn⟩, rfl⟩ := shiftWindow_eq_ok.mp ht
  have htaken := h.taken
  have hk := h.dict
  refine ⟨?_, by omega, fun q hq => ?_⟩
  · rw [hla]
    exact htaken.trans (by omega)
  · rw [htext, h.cells _ (by omega)]
    congr 1
    omega

end

/-! ## What a token stands for -/

/-- A copy at distance `d` that meets the bytes of `xs` after the first `k` gives the next `r` of them (R86). -/
theorem copyBytes_take {xs : List Byte} {d r k : Nat} (hd : 1 ≤ d) (hdk : d ≤ k) (hr : k + r ≤ xs.length)
    (heq : ∀ q, q < r → xs[k - d + q]? = xs[k + q]?) : copyBytes d r (xs.take k) = some (xs.take (k + r)) := by
  induction r generalizing k with
  | zero => rfl
  | succ r ih =>
    have hlen : (xs.take k).length = k := List.length_take_of_le (by omega)
    have hnext : xs[k]? = some xs[k] := List.getElem?_eq_getElem (by omega)
    have hread : (xs.take k)[k - d]? = some xs[k] := by
      rw [List.getElem?_take_of_lt (by omega), ← hnext]
      exact heq 0 r.succ_pos
    rw [copyBytes, hlen, if_pos hdk, hread]
    have htail := ih (k := k + 1) (by omega) (by omega) fun q hq => by
      have hshift := heq (q + 1) (by omega)
      rwa [show k - d + (q + 1) = k + 1 - d + q by omega, show k + (q + 1) = k + 1 + q by omega] at hshift
    rw [List.take_add_one, hnext] at htail
    rw [show k + (r + 1) = k + 1 + r by omega]
    exact htail

/-- The token codes the `n` bytes of `xs` after the first `k`, on no more than `n` wire bytes (R86, R93). -/
structure CodesNext (tok : TokReg) (xs : List Byte) (k n : Nat) : Prop where
  stands : expandForm (xs.take k) tok.instr = some (xs.take (k + n))
  wire_le : tok.wire.length ≤ n

/-- Policy's literal is the lookahead's first byte (R194). -/
theorem literalToken_codesNext {s : State} {k : Nat} {s0 : Byte} (h : WindowHoldsInput s k) (hne : 1 ≤ s.laSize)
    (h0 : s.laByte 0 = some s0) : CodesNext (literalToken s0 s) s.inTaken k 1 where
  stands := by
    have hnext : s.inTaken[k]? = some s0 := (h.laByte_eq hne).symm.trans h0
    have hexp : expandForm (s.inTaken.take k) (literalToken s0 s).instr = some (s.inTaken.take k ++ [s0]) := rfl
    rw [hexp, List.take_add_one, hnext]
    rfl
  wire_le := le_rfl

/-- Policy's reference is the match it was given (R177, R193). -/
theorem referenceToken_codesNext {s : State} {k len : Nat} {o : Cursor} (h : WindowHoldsInput s k) (hw : WindowOk s)
    (hmatch : IsLongestMatch s o.toNat len) (hlen : 2 ≤ len) :
    CodesNext (referenceToken o len s) s.inTaken k len where
  stands := by
    obtain ⟨hstart, hbytes, -⟩ := hmatch.found (by omega)
    have hfit := hmatch.len_le
    have hla := hw.la_le
    have hdict : s.dictSize ≤ k := h.dict ▸ Nat.min_le_left k 256
    have htaken := h.taken
    have hform : expandForm (s.inTaken.take k) (referenceToken o len s).instr =
        copyBytes ((referenceToken o len s).a.toNat + 1) ((referenceToken o len s).b.toNat + 1) (s.inTaken.take k) :=
      rfl
    rw [hform, referenceToken_a_toNat hw hstart, referenceToken_b_toNat (hfit.trans hla) (by omega),
      Nat.sub_add_cancel (by omega), Nat.sub_add_cancel (by omega)]
    refine copyBytes_take (by omega) (by omega) (by omega) fun q hq => ?_
    have hsame := hbytes q hq
    rw [h.laByte_eq (by omega), h.cells _ (by omega)] at hsame
    rw [← hsame]
    congr 1
    omega
  wire_le := hlen

/-- The token that is made codes the next bytes of the input, and the window moves past them (R196, R271). -/
theorem produceToken_codesNext {s u : State} {k : Nat} {tok : TokReg} (h : WindowHoldsInput s k) (hw : WindowOk s)
    (hl : LiveWritten s) (made : produceToken s = .returned tok u) :
    ∃ n, CodesNext tok u.inTaken k n ∧ WindowHoldsInput u (k + n) := by
  obtain ⟨t, o, len, ht, hfound, hpolicy⟩ := produceToken_eq_returned_iff.mp made
  have hs : WindowHoldsInput { s with t := t } k := ⟨h.taken, h.dict, h.cells⟩
  have hws : WindowOk { s with t := t } := ⟨hw.dict_le, hw.la_le⟩
  obtain ⟨s0, lit, h0, htest, ⟨rfl, rfl, v, hv, rfl⟩ | ⟨rfl, rfl, hu⟩⟩ := policy_eq_returned_iff.mp hpolicy
  · have hwindow := hs.afterShift hws hv
    obtain ⟨⟨-, hne⟩, rfl⟩ := shiftWindow_eq_ok.mp hv
    exact ⟨1, literalToken_codesNext hs hne h0, hwindow.taken, hwindow.dict, hwindow.cells⟩
  · have htable : TableUpTo { s with t := t } s.laSize := (tableUpTo_iff _ _).mpr (buildEntries_spec ht).1
    obtain ⟨r, hr, hmatch⟩ := findMatch_finds hws hl fun i hi => htable i (hi.trans_le (Nat.sub_le _ _))
    cases hr.symm.trans hfound
    have hlen : 2 ≤ len := by
      by_contra hshort
      cases (choosesLiteral_of_short (by omega) s0 _).symm.trans htest
    have hwindow := hs.afterShift hws hu
    have hcodes := referenceToken_codesNext hs hws hmatch hlen
    obtain ⟨-, rfl⟩ := shiftWindow_eq_ok.mp hu
    exact ⟨len, hcodes, hwindow⟩

end Sys2Proof.Machine
end

section
/-! SUPPORT. Framing one group after another, and what a framed token sequence stands for (spec/45_encoder.md R213,
R216, R217; spec/30_encoding.md R82, R86). -/

namespace Sys2Proof

theorem groupsFuel_nil (fuel : Nat) : groupsFuel fuel [] = [] := by cases fuel <;> rfl

/-- A group put after full groups is a group of its own (R216). -/
theorem groupsFuel_append_group {fuel fuel' : Nat} {ts g : List TokReg} (hfuel : ts.length + g.length ≤ fuel)
    (hfuel' : ts.length ≤ fuel') (hfull : 8 ∣ ts.length) (hne : g ≠ []) (hg : g.length ≤ 8) :
    groupsFuel fuel (ts ++ g) = groupsFuel fuel' ts ++ [g] := by
  have hpos := List.length_pos_iff.mpr hne
  obtain ⟨fuel, rfl⟩ : ∃ n, fuel = n + 1 := ⟨fuel - 1, by omega⟩
  induction fuel generalizing fuel' ts with
  | zero =>
    obtain rfl : ts = [] := List.length_eq_zero_iff.mp (by omega)
    rw [groupsFuel_nil, List.nil_append, groupsFuel_succ _ hne, List.take_of_length_le hg]
    rfl
  | succ fuel ih =>
    by_cases hts : ts = []
    · subst hts
      rw [groupsFuel_nil, List.nil_append, groupsFuel_succ _ hne, List.take_of_length_le hg, List.drop_of_length_le hg,
        groupsFuel_nil]
      rfl
    · have h8 : 8 ≤ ts.length := Nat.le_of_dvd (List.length_pos_iff.mpr hts) hfull
      obtain ⟨fuel', rfl⟩ : ∃ n, fuel' = n + 1 := ⟨fuel' - 1, by omega⟩
      have hlen : (ts.drop 8).length = ts.length - 8 := List.length_drop
      have hrest : groupsFuel (fuel + 1) (ts.drop 8 ++ g) = groupsFuel fuel' (ts.drop 8) ++ [g] :=
        ih (by omega) (hlen ▸ Nat.dvd_sub hfull (dvd_refl 8)) (by omega)
      rw [groupsFuel_succ _ (List.append_ne_nil_of_left_ne_nil hts g), groupsFuel_succ _ hts,
        List.take_append_of_le_length h8, List.drop_append_of_le_length h8, hrest]
      rfl

/-- The stream grows group by group (R213, R217). -/
theorem frameTokens_append_group {ts g : List TokReg} (hfull : 8 ∣ ts.length) (hne : g ≠ []) (hg : g.length ≤ 8) :
    frameTokens (ts ++ g) = frameTokens ts ++ groupBytes g := by
  rw [frameTokens, groupsOf, List.length_append, groupsFuel_append_group le_rfl le_rfl hfull hne hg,
    List.flatMap_append, List.flatMap_singleton]
  rfl

end Sys2Proof

namespace Sys2Proof.Machine

theorem expandForms_append_forms (out : List Byte) (is js : List Instr) :
    expandForms out (is ++ js) = (expandForms out is).bind (expandForms · js) := by
  induction is generalizing out with
  | nil => rfl
  | cons i is ih =>
    rw [List.cons_append, expandForms, expandForms]
    cases expandForm out i with
    | none => rfl
    | some out' => exact ih out'

/-- A group's control byte stands for no output (R82). -/
theorem expandForms_groupInstrs (out : List Byte) (g : List TokReg) :
    expandForms out (groupInstrs g) = expandForms out (g.map TokReg.instr) := rfl

theorem expandForms_flatMap_groupInstrs (out : List Byte) (gs : List (List TokReg)) :
    expandForms out (gs.flatMap groupInstrs) = expandForms out (gs.flatten.map TokReg.instr) := by
  induction gs generalizing out with
  | nil => rfl
  | cons g gs ih =>
    simp only [List.flatMap_cons, List.flatten_cons, List.map_append, expandForms_append_forms,
      expandForms_groupInstrs, ih]

/-- A stream stands for what its tokens stand for (R82, R86). -/
theorem expandForms_frameInstrs (out : List Byte) (ts : List TokReg) :
    expandForms out (frameInstrs ts) = expandForms out (ts.map TokReg.instr) := by
  rw [frameInstrs, expandForms_flatMap_groupInstrs, groupsOf, flatten_groupsFuel le_rfl]

/-- The tokens stand for `xs`, on no more wire bytes than `xs` has (R86, R93). -/
structure TokensCode (ts : List TokReg) (xs : List Byte) : Prop where
  stands : expandForms [] (ts.map TokReg.instr) = some xs
  wire_le : (ts.flatMap TokReg.wire).length ≤ xs.length

theorem tokensCode_nil : TokensCode [] [] := ⟨rfl, le_rfl⟩

theorem TokensCode.append {ts : List TokReg} {xs : List Byte} {tok : TokReg} {k n : Nat}
    (h : TokensCode ts (xs.take k)) (hnext : CodesNext tok xs k n) (hfit : k + n ≤ xs.length) :
    TokensCode (ts ++ [tok]) (xs.take (k + n)) where
  stands := by
    rw [List.map_append, List.map_singleton]
    exact (expandForms_append _ h.stands).trans hnext.stands
  wire_le := by
    have hold := h.wire_le
    have htok := hnext.wire_le
    rw [List.length_take_of_le (by omega)] at hold ⊢
    rw [List.flatMap_append, List.flatMap_singleton, List.length_append]
    omega

end Sys2Proof.Machine
end

section
/-! SUPPORT. Along a compress run, the tokens made so far stand for the coded part of the input, and the groups flushed
so far are the output (spec/45_encoder.md R210 to R217; spec/47_driver_and_host.md R271, R274). -/

namespace Sys2Proof.Machine

/-- The tokens `ts` code the input up to the lookahead (R274). -/
def CodedBy (ts : List TokReg) (s : State) : Prop :=
  ∃ k, WindowHoldsInput s k ∧ TokensCode ts (s.inTaken.take k)

theorem startRun_codedBy (e : Engine) (s : State) : CodedBy [] (startRun e s) :=
  ⟨0, startRun_windowHoldsInput e s, tokensCode_nil⟩

/-- What `CodedBy` speaks of: the state with all but `BF`, the window's cursors and the input blanked. -/
def codedPart (s : State) : State :=
  { State.reset with bf := s.bf, dictTl := s.dictTl, dictHd := s.dictHd, laHd := s.laHd, inTaken := s.inTaken }

theorem codedBy_codedPart {ts : List TokReg} {s : State} : CodedBy ts (codedPart s) ↔ CodedBy ts s :=
  exists_congr fun _ =>
    and_congr ⟨fun h => ⟨h.taken, h.dict, h.cells⟩, fun h => ⟨h.taken, h.dict, h.cells⟩⟩ Iff.rfl

theorem CodedBy.of_codedPart_eq {ts : List TokReg} {s t : State} (h : CodedBy ts s)
    (ht : codedPart t = codedPart s) : CodedBy ts t :=
  codedBy_codedPart.mp (ht ▸ codedBy_codedPart.mpr h)

/-- With the lookahead empty the tokens code the whole input. -/
theorem CodedBy.whole {ts : List TokReg} {s : State} (h : CodedBy ts s) (drained : s.laSize = 0) :
    TokensCode ts s.inTaken := by
  obtain ⟨k, hwindow, hcode⟩ := h
  have htaken := hwindow.taken
  rwa [List.take_of_length_le (by omega)] at hcode

theorem CodedBy.afterStoreInput {ts : List TokReg} {s : State} (h : CodedBy ts s) (hw : WindowOk s)
    (room : s.laSize < 256) (b : Byte) (rest : List Move) :
    CodedBy ts (storeInput b (recordMove s (.input (.byte b)) rest)) := by
  obtain ⟨k, hwindow, hcode⟩ := h
  refine ⟨k, hwindow.afterStoreInput hw room b rest, ?_⟩
  change TokensCode ts ((s.inTaken ++ [b]).take k)
  rwa [List.take_append_of_le_length hwindow.le_length]

/-- The token that is made follows the tokens before it. -/
theorem CodedBy.afterToken {ts : List TokReg} {s u : State} {tok : TokReg} (h : CodedBy ts s) (hs : DriverOk s)
    (made : produceToken s = .returned tok u) : CodedBy (ts ++ [tok]) u := by
  obtain ⟨k, hwindow, hcode⟩ := h
  obtain ⟨n, hnext, hwindow'⟩ := produceToken_codesNext hwindow hs.window hs.live made
  have hin : u.inTaken = s.inTaken := (congrArg State.inTaken (produceToken_outsideCompress made) :)
  exact ⟨k + n, hwindow', (hin ▸ hcode).append hnext hwindow'.le_length⟩

/-! ## The groups written -/

/-- The token that waits with a Flush (R210). -/
def waitingTok : FlushSite → List TokReg
  | .accept tok => [tok]
  | .finish => []

/-- The output is full groups and then `part` of the group in `TOK[0..n)`; with that group's tokens and those waiting,
their tokens code the input up to the lookahead (R210, R213, R216). -/
def GroupsWritten (part : List Byte) (waiting : List TokReg) (s : State) : Prop :=
  ∃ ts, 8 ∣ ts.length ∧ s.outTaken = frameTokens ts ++ part ∧ CodedBy (ts ++ s.groupToks ++ waiting) s

section
variable {part : List Byte} {waiting : List TokReg} {s u : State} {tok : TokReg}

theorem GroupsWritten.atPhase (h : GroupsWritten part waiting s) (p : Phase) :
    GroupsWritten part waiting (setPhase p s) := by
  obtain ⟨ts, hfull, hout, hcode⟩ := h
  exact ⟨ts, hfull, hout, hcode.of_codedPart_eq rfl⟩

theorem GroupsWritten.withRecords (h : GroupsWritten part waiting s) (ms : List Move) (w : Option Word) :
    GroupsWritten part waiting { s with moves := ms, hostData := w } := by
  obtain ⟨ts, hfull, hout, hcode⟩ := h
  exact ⟨ts, hfull, hout, hcode.of_codedPart_eq rfl⟩

theorem startRun_groupsWritten (s : State) : GroupsWritten [] [] (startRun .compress s) :=
  ⟨[], dvd_zero 8, rfl, startRun_codedBy .compress s⟩

theorem GroupsWritten.afterToken (h : GroupsWritten [] [] s) (hs : DriverOk s)
    (made : produceToken s = .returned tok u) : GroupsWritten [] [tok] u := by
  obtain ⟨ts, hfull, hout, hcode⟩ := h
  obtain ⟨hn, htok⟩ := produceToken_keeps_group made
  have hgroup : u.groupToks = s.groupToks := by rw [State.groupToks, State.groupToks, hn, htok]
  have houtu : u.outTaken = s.outTaken := (congrArg State.outTaken (produceToken_outsideCompress made) :)
  rw [List.append_nil] at hcode
  exact ⟨ts, hfull, houtu.trans hout, hgroup ▸ hcode.afterToken hs made⟩

/-- The waiting token joins the group (R210). -/
theorem GroupsWritten.afterStoreTok (h : GroupsWritten [] [tok] s) (room : s.n.val < 8) :
    GroupsWritten [] [] (storeTok tok s) := by
  obtain ⟨ts, hfull, hout, hcode⟩ := h
  refine ⟨ts, hfull, hout, ?_⟩
  rw [groupToks_storeTok tok s room, ← List.append_assoc, List.append_nil]
  exact hcode.of_codedPart_eq rfl

theorem groupToks_of_empty (empty : s.n.val = 0) : s.groupToks = [] := by
  rw [State.groupToks, empty, List.take_zero]

/-- The run's first group opens with no token before it (R210). -/
theorem GroupsWritten.afterOpenFirst (h : GroupsWritten [] [tok] s) (empty : s.n.val = 0) :
    GroupsWritten [] [tok] (openGroup s) := by
  obtain ⟨ts, hfull, hout, hcode⟩ := h
  rw [groupToks_of_empty empty] at hcode
  exact ⟨ts, hfull, hout, (groupToks_openGroup s).symm ▸ hcode.of_codedPart_eq rfl⟩

theorem flushBytes_eq_groupBytes (hc : s.c = controlByte s.groupToks) : s.flushBytes = groupBytes s.groupToks := by
  rw [State.flushBytes, hc, groupBytes]

/-- Once all its bytes are written the group is one more of those in the output (R213, R217). -/
theorem frameTokens_of_written {ts : List TokReg} (hfull : 8 ∣ ts.length) (pending : 1 ≤ s.n.val)
    (hc : s.c = controlByte s.groupToks) : frameTokens ts ++ s.flushBytes = frameTokens (ts ++ s.groupToks) := by
  have hlen := groupToks_length s
  rw [flushBytes_eq_groupBytes hc, frameTokens_append_group hfull (List.ne_nil_of_length_pos (by omega)) (by omega)]

/-- The next group opens after a full one has been written whole (R210). -/
theorem GroupsWritten.afterOpenNext (h : GroupsWritten s.flushBytes [tok] s) (full : s.n.val = 8)
    (hc : s.c = controlByte s.groupToks) : GroupsWritten [] [tok] (openGroup s) := by
  obtain ⟨ts, hfull, hout, hcode⟩ := h
  have hlen : s.groupToks.length = 8 := by rw [groupToks_length, full, Nat.min_self]
  refine ⟨ts ++ s.groupToks, ?_, ?_, ?_⟩
  · rw [List.length_append, hlen]
    exact (Nat.dvd_add_self_right).mpr hfull
  · rw [List.append_nil, ← frameTokens_of_written hfull (by omega) hc]
    exact hout
  · rw [groupToks_openGroup, List.append_nil]
    exact hcode.of_codedPart_eq rfl

/-- One more byte of the group is written (R213). -/
theorem GroupsWritten.afterByte {b : Byte} {k : Nat} (h : GroupsWritten (s.flushBytes.take k) waiting s)
    (hb : s.flushBytes[k]? = some b) (rest : List Move) :
    GroupsWritten (s.flushBytes.take (k + 1)) waiting (outputAccepted b rest s) := by
  obtain ⟨ts, hfull, hout, hcode⟩ := h
  refine ⟨ts, hfull, ?_, hcode.of_codedPart_eq rfl⟩
  change s.outTaken ++ [b] = _
  rw [List.take_add_one, hb, hout, List.append_assoc]
  rfl

end

/-! ## Along a run -/

/-- The run's output is the framing of tokens that code its input (R274). -/
def FramesInput (s : State) : Prop := ∃ ts, s.outTaken = frameTokens ts ∧ TokensCode ts s.inTaken

/-- How much of its input a compress run has turned into output, by its program point. -/
def EncodedSoFar (s : State) : Prop :=
  match s.phase with
  | .cRead => GroupsWritten [] [] s
  | .cWrite _ k site => GroupsWritten (s.flushBytes.take k) (waitingTok site) s
  | .done => FramesInput s
  | .idle => True
  | .error => True
  | .dToken => False
  | .dNeed _ => False
  | .dWrite _ _ => False

section
variable {s : State}

theorem encodedSoFar_cRead (hp : s.phase = .cRead) : EncodedSoFar s ↔ GroupsWritten [] [] s := by
  simp only [EncodedSoFar, hp]

theorem encodedSoFar_cWrite {b : Byte} {k : Nat} {site : FlushSite} (hp : s.phase = .cWrite b k site) :
    EncodedSoFar s ↔ GroupsWritten (s.flushBytes.take k) (waitingTok site) s := by
  simp only [EncodedSoFar, hp]

theorem encodedSoFar_done (hp : s.phase = .done) : EncodedSoFar s ↔ FramesInput s := by
  simp only [EncodedSoFar, hp]

end

/-- With nothing left and no group pending the run's output is whole (R214). -/
theorem GroupsWritten.framesInput {s : State} (h : GroupsWritten [] [] s) (drained : s.laSize = 0)
    (empty : s.n.val = 0) : FramesInput s := by
  obtain ⟨ts, -, hout, hcode⟩ := h
  rw [groupToks_of_empty empty, List.append_nil, List.append_nil] at hcode
  exact ⟨ts, by rw [hout, List.append_nil], hcode.whole drained⟩

/-- With nothing left and the last group written the run's output is whole (R214). -/
theorem GroupsWritten.framesInput_of_written {s : State} (h : GroupsWritten s.flushBytes [] s) (drained : s.laSize = 0)
    (pending : 1 ≤ s.n.val) (hc : s.c = controlByte s.groupToks) : FramesInput s := by
  obtain ⟨ts, hfull, hout, hcode⟩ := h
  rw [List.append_nil] at hcode
  exact ⟨ts ++ s.groupToks, hout.trans (frameTokens_of_written hfull pending hc), hcode.whole drained⟩

/-- The driver codes the input token by token (R271). -/
theorem DriverEnds.encodedSoFar {s t : State} (ends : DriverEnds s t) (hs : DriverOk s)
    (h : GroupsWritten [] [] s) : EncodedSoFar t := by
  induction ends with
  | waits => exact h.atPhase .cRead
  | ends drained _ empty => exact h.framesInput drained empty
  | offersLast => exact h.atPhase _
  | offersFull _ _ made => exact (h.afterToken hs made).atPhase _
  | opens _ left made first _ ih =>
    have hu := hs.afterToken left made
    exact ih (hu.afterOpenGroup.afterStoreTok _ (by simp))
      (((h.afterToken hs made).afterOpenFirst first).afterStoreTok (by simp))
  | stores _ left made _ room _ ih =>
    exact ih ((hs.afterToken left made).afterStoreTok _ room) ((h.afterToken hs made).afterStoreTok room)

/-- A group's byte was accepted: its Flush goes on, or returns to Accept or Finish (R210, R213, R214). -/
theorem encodedSoFar_flushOn {s t : State} {b : Byte} {k : Nat} {site : FlushSite} {rest : List Move}
    (hi : Inv s) (hp : s.phase = .cWrite b k site) (h : EncodedSoFar s)
    (ht : (flushOn k site (outputAccepted b rest s)).Ends t) : EncodedSoFar t := by
  have he : s.phase.engine = some .compress := by rw [hp]; rfl
  obtain ⟨pending, hb, hsite⟩ := (hi.compress he).writing b k site hp
  have hdriver : DriverOk (outputAccepted b rest s) :=
    recordMove_output_ok rest (by rw [hp]; rfl) ▸ (recordMove_inv (.output .ok) rest hi).driverOk (by simpa using he)
  have hwritten := ((encodedSoFar_cWrite hp).mp h).afterByte hb rest
  obtain ⟨b', -, rfl⟩ | ⟨hlast, hret⟩ := flushOn_ends_iff.mp ht
  · exact hwritten.atPhase _
  · change s.flushBytes.length ≤ k + 1 at hlast
    rw [List.take_of_length_le hlast] at hwritten
    obtain ⟨tok, rfl, full⟩ | ⟨rfl, drained, -⟩ := hsite
    · exact (driverEnds_of_compressFrom hret).encodedSoFar (hdriver.afterOpenGroup.afterStoreTok tok (by simp))
        ((hwritten.afterOpenNext full hdriver.control).afterStoreTok (by simp))
    · cases hret
      exact hwritten.framesInput_of_written drained pending hdriver.control

/-- Each answer moves the run on by the byte it delivers or accepts. -/
theorem EncodedSoFar.answered {s t : State} {m : Move} {rest : List Move} (h : EncodedSoFar s) (hi : Inv s)
    (ha : AnswerStep (recordMove s m rest) m (.next t)) : EncodedSoFar t := by
  generalize hu : recordMove s m rest = u at ha
  have hphase : u.phase = s.phase := hu ▸ recordMove_phase s m rest
  generalize ho : Host.Outcome.next t = o at ha
  have hends : ∀ {r : Ran Unit}, Host.Outcome.next t = r.outcome keepNone → r.Ends t :=
    fun hr => Ran.outcome_keepNone_eq_next.mp hr.symm
  cases ha with
  | @fillByte b hp =>
    have hps := hphase.symm.trans hp
    have he : s.phase.engine = some .compress := by rw [hps]; rfl
    obtain ⟨room, -⟩ := (hi.compress he).reading hps
    obtain ⟨ts, hfull, hout, hcode⟩ := (encodedSoFar_cRead hps).mp h
    subst hu
    exact (driverEnds_of_compressFrom (hends ho)).encodedSoFar
      (((recordMove_inv _ rest hi).driverOk (by simpa using he)).afterStoreInput b room)
      ⟨ts, hfull, hout, hcode.afterStoreInput (hi.compress he).window room b rest⟩
  | fillEnd hp =>
    have hps := hphase.symm.trans hp
    have he : s.phase.engine = some .compress := by rw [hps]; rfl
    obtain ⟨ts, hfull, hout, hcode⟩ := (encodedSoFar_cRead hps).mp h
    subst hu
    exact (driverEnds_of_compressFrom (hends ho)).encodedSoFar
      ((recordMove_inv _ rest hi).driverOk (by simpa using he)).afterSetEof
      ⟨ts, hfull, hout, hcode.of_codedPart_eq rfl⟩
  | groupByte hp =>
    have hps := hphase.symm.trans hp
    rw [recordMove_output_ok rest (by rw [hps]; rfl)] at hu
    subst hu
    exact encodedSoFar_flushOn hi hps h (hends ho)
  | truncated | readError | writeError => cases ho; exact trivial
  | lengthByte hp | cleanEnd hp | outputByte hp =>
    simp only [EncodedSoFar, hphase.symm.trans hp] at h
  | ctrlByte hp | literal hp | offsetByte hp =>
    rcases hp with hp | hp <;> simp only [EncodedSoFar, hphase.symm.trans hp] at h

/-- A step of a run is a reset, or a wait or a host access that leaves the run as it is, or the answer to the
outstanding transaction (R270, R283, R340). -/
theorem step_of_busy_ways {s t : State} (busy : s.runState = .busy) (h : step s = .next t) :
    t.phase = .idle ∨ (∃ ms w, t = { s with moves := ms, hostData := w }) ∨
      ∃ m rest, AnswerStep (recordMove s m rest) m (.next t) := by
  by_cases hr : ∃ f rest, s.moves = .reset f :: rest
  · obtain ⟨f, rest, hm⟩ := hr
    cases (step_of_move hm).symm.trans h
    exact .inl rfl
  · obtain rfl | ⟨a, rest, w, -, rfl⟩ | ⟨m, rest, -, ha⟩ := step_of_busy_cases busy h (by simpa using hr)
    · exact .inr (.inl ⟨t.moves, t.hostData, rfl⟩)
    · exact .inr (.inl ⟨rest, w, rfl⟩)
    · exact .inr (.inr ⟨m, rest, ha⟩)

/-- The moves to come and the word last read are no part of what has been coded (log 1, log 19). -/
theorem EncodedSoFar.withRecords {s : State} (h : EncodedSoFar s) (ms : List Move) (w : Option Word) :
    EncodedSoFar { s with moves := ms, hostData := w } := by
  have hsame : ({ s with moves := ms, hostData := w } : State).phase = s.phase := rfl
  obtain ⟨p, hp⟩ : ∃ p, s.phase = p := ⟨_, rfl⟩
  cases p with
  | cRead => exact (encodedSoFar_cRead (hsame.trans hp)).mpr (((encodedSoFar_cRead hp).mp h).withRecords ms w)
  | cWrite => exact (encodedSoFar_cWrite (hsame.trans hp)).mpr (((encodedSoFar_cWrite hp).mp h).withRecords ms w)
  | done => exact (encodedSoFar_done (hsame.trans hp)).mpr ((encodedSoFar_done hp).mp h)
  | idle | error | dToken | dNeed | dWrite => simp only [EncodedSoFar, hp] at h ⊢

/-- What every state of a compress run meets. -/
structure CompressRunOk (s : State) : Prop where
  inv : Inv s
  encoded : EncodedSoFar s

theorem compressRunOk_start {s t : State} (hi : Inv s) (ready : s.runState ≠ .busy)
    (h : exec (.cmdCompress 0) s = .next t) : CompressRunOk t := by
  have hrun : (compressFrom (startRun .compress s)).outcome keepNone = .next t := (if_neg ready).symm.trans h
  have hends := driverEnds_of_compressFrom (Ran.outcome_keepNone_eq_next.mp hrun)
  have hstart := startRun_driverOk hi.memories
  exact ⟨hends.inv hstart, hends.encodedSoFar hstart (startRun_groupsWritten s)⟩

theorem CompressRunOk.step {s t : State} (h : CompressRunOk s) (busy : s.runState = .busy)
    (hst : step s = .next t) : CompressRunOk t where
  inv := stepKeepsInv s t h.inv hst
  encoded := by
    obtain hidle | ⟨ms, w, rfl⟩ | ⟨m, rest, ha⟩ := step_of_busy_ways busy hst
    · simp only [EncodedSoFar, hidle]
    · exact h.encoded.withRecords ms w
    · exact h.encoded.answered h.inv ha

theorem compressRunOk_of_runOf {t : State} (h : RunOf .compress t) : CompressRunOk t := by
  induction h with
  | start s t inv ready run => exact compressRunOk_start inv ready run
  | step s t _ busy next ih => exact ih.step busy next

/-- STATE says DONE at the program point DONE only (R39, R284). -/
theorem Inv.phase_of_done {t : State} (h : Inv t) (done : t.runState = .done) : t.phase = .done := by
  rw [h.status.state_of_phase] at done
  cases hp : t.phase with
  | done => rfl
  | idle | cRead | cWrite | dToken | dNeed | dWrite | error => rw [hp] at done; cases done

/-- R274: a compress run that ends DONE has framed its input. -/
theorem framesInput_of_done {t : State} (h : RunOf .compress t) (done : t.runState = .done) : FramesInput t := by
  have hok := compressRunOk_of_runOf h
  exact (encodedSoFar_done (hok.inv.phase_of_done done)).mp hok.encoded

end Sys2Proof.Machine
end

section
/-! PROOF. O58 and O59: a compress run frames tokens that stand for its input, within the bound of R351. -/

namespace Sys2Proof.Machine

/-- Settles O58: the tokens made along the run, whose control bytes stand for no output. -/
theorem compressRunFramesItsInput : Obligations.CompressRunFramesItsInput := by
  intro t hrun hdone
  obtain ⟨ts, hout, hcode⟩ := framesInput_of_done hrun hdone
  exact ⟨ts, hout, (expandForms_frameInstrs [] ts).trans hcode.stands⟩

/-- Settles O59: the tokens take at most one wire byte for each byte they code, so there are at most as many tokens as
bytes, and a control byte for every 8 of them. -/
theorem compressedLengthIsBounded : Obligations.CompressedLengthIsBounded := by
  intro t hrun hdone
  obtain ⟨ts, hout, hcode⟩ := framesInput_of_done hrun hdone
  have hwire := hcode.wire_le
  rw [length_flatMap_wire] at hwire
  rw [hout, framedStreamLength]
  omega

end Sys2Proof.Machine
end

section
/-! SUPPORT. How an answer ends a run: cleanly, in ERROR, or not at all (spec/47_driver_and_host.md R285;
spec/60_exceptions.md R300 to R305). -/

namespace Sys2Proof.Machine

/-- The answers after which a run is complete (R214, R247, R271). -/
def CompletedBy (u : State) (m : Move) : Prop :=
  (m = .input .endOfInput ∧ (u.phase = .cRead ∨ u.phase = .dToken)) ∨
  (m = .output .ok ∧ ∃ b k, u.phase = .cWrite b k .finish ∧ u.flushBytes.length = k + 1)

/-- The answers after which a run is aborted, each with its class (R300 to R305). -/
def AbortedBy (u : State) (m : Move) (err : Option RunError) : Prop :=
  (∃ e, m = .input (.err e) ∧ u.phase.awaitsInput = true ∧ err = some .readError) ∨
  (∃ b e, m = .output (.err e) ∧ u.phase.offers = some b ∧ err = some .writeError) ∨
  (∃ site, m = .input .endOfInput ∧ u.phase = .dNeed site ∧ err = some .truncated) ∨
  (∃ off lm1, m = .input (.byte lm1) ∧ u.phase = .dNeed (.lengthByte off) ∧
    u.filled.val < off.toNat + 1 ∧ err = some .badReference)

/-- The driver goes on with the run, or ends it (R271). -/
theorem DriverEnds.busy_or_done {s t : State} (h : DriverEnds s t) :
    t.phase.runState = .busy ∨ t.phase = .done := by
  obtain hp | ⟨_, _, hp⟩ | ⟨hp, -⟩ := h.phase_cases <;> rw [hp]
  · exact .inl rfl
  · exact .inl rfl
  · exact .inr rfl

/-- A copy raises BAD_REFERENCE, or goes on with the run (R245, R246). -/
theorem copy_ends_cases {off lm1 : Byte} {s t : State} (h : (copy off lm1 s).Ends t) :
    (s.filled.val < off.toNat + 1 ∧ t = raiseError .badReference Config.genericIoError s) ∨
    t.phase.runState = .busy := by
  obtain ⟨hoff, hc⟩ | ⟨-, b, -, hc⟩ | ⟨-, -, hc⟩ := copy_cases off lm1 s <;> rw [hc] at h
  · exact .inl ⟨hoff, h.symm⟩
  · cases h
    exact .inr rfl
  · exact absurd h (Ran.not_ends_fault _ t)

theorem putReturn_ends_busy {site : PutSite} {s t : State} (h : (putReturn site s).Ends t) :
    t.phase.runState = .busy := by
  rcases site with _ | ⟨src, _ | left⟩
  · cases h
    rfl
  · cases h
    rfl
  · obtain ⟨b, rfl⟩ := copyStep_ends_eq h
    rfl

/-- Flush goes on with the run; only Finish's Flush ends it, after the group's last byte (R210, R213, R214). -/
theorem flushOn_ends_busy_or_done {k : Nat} {site : FlushSite} {s t : State} (h : (flushOn k site s).Ends t) :
    t.phase.runState = .busy ∨ (t.phase = .done ∧ site = .finish ∧ s.flushBytes.length ≤ k + 1) := by
  obtain ⟨b, -, rfl⟩ | ⟨hlast, hret⟩ := flushOn_ends_iff.mp h
  · exact .inl rfl
  · cases site with
    | finish =>
      cases hret
      exact .inr ⟨rfl, rfl, hlast⟩
    | accept tok =>
      have hrun := driverEnds_of_compressFrom hret
      obtain hbusy | hdone := hrun.busy_or_done
      · exact .inl hbusy
      · have hn := (hrun.of_done hdone).2
        cases hn

/-- After an answer the run goes on, is complete, or is aborted (R285). -/
theorem AnswerStep.ending {u t : State} {m : Move} (h : AnswerStep u m (.next t)) (hi : Inv u) :
    t.phase.runState = .busy ∨ (t.phase = .done ∧ CompletedBy u m) ∨
      (t.phase = .error ∧ AbortedBy u m t.errClass) := by
  generalize ho : Host.Outcome.next t = o at h
  have hends : ∀ {r : Ran Unit}, Host.Outcome.next t = r.outcome keepNone → r.Ends t :=
    fun hr => Ran.outcome_keepNone_eq_next.mp hr.symm
  cases h with
  | fillByte hp =>
    have hmore := ((hi.compress (by rw [hp]; rfl)).reading hp).2
    have hrun := driverEnds_of_compressFrom (hends ho)
    refine hrun.busy_or_done.imp_right fun hdone => ?_
    cases hmore.symm.trans (hrun.of_done hdone).1
  | fillEnd hp =>
    exact (driverEnds_of_compressFrom (hends ho)).busy_or_done.imp_right fun hdone =>
      .inl ⟨hdone, .inl ⟨rfl, .inl hp⟩⟩
  | groupByte hp =>
    refine (flushOn_ends_busy_or_done (hends ho)).imp_right fun ⟨hdone, hsite, hlast⟩ => .inl ⟨hdone, ?_⟩
    obtain ⟨-, hb, -⟩ := (hi.compress (by rw [hp]; rfl)).writing _ _ _ hp
    have hk := (List.getElem?_eq_some_iff.mp hb).1
    exact .inr ⟨rfl, _, _, hsite ▸ hp, by omega⟩
  | lengthByte hp =>
    obtain ⟨hoff, rfl⟩ | hbusy := copy_ends_cases (hends ho)
    · exact .inr (.inr ⟨rfl, .inr (.inr (.inr ⟨_, _, rfl, hp, hoff, rfl⟩))⟩)
    · exact .inl hbusy
  | outputByte => exact .inl (putReturn_ends_busy (hends ho))
  | ctrlByte | literal | offsetByte => cases ho; exact .inl rfl
  | cleanEnd hp => cases ho; exact .inr (.inl ⟨rfl, .inl ⟨rfl, .inr hp⟩⟩)
  | readError ha => cases ho; exact .inr (.inr ⟨rfl, .inl ⟨_, rfl, ha, rfl⟩⟩)
  | writeError ho' => cases ho; exact .inr (.inr ⟨rfl, .inr (.inl ⟨_, _, rfl, ho', rfl⟩)⟩)
  | truncated hp => cases ho; exact .inr (.inr ⟨rfl, .inr (.inr (.inl ⟨_, rfl, hp, rfl⟩))⟩)

/-- A step of a run with a move pending keeps it BUSY, completes it, aborts it, or is a reset (R285). -/
theorem step_of_busy_ending {s t : State} {m : Move} {rest : List Move} (hi : Inv s) (busy : s.runState = .busy)
    (hm : s.moves = m :: rest) (h : step s = .next t) :
    t.runState = .busy ∨ (t.runState = .done ∧ CompletedBy s m) ∨
      (t.runState = .error ∧ AbortedBy s m t.errClass) ∨ (t.runState = .idle ∧ ∃ f, m = .reset f) := by
  obtain ⟨w, rfl⟩ | ha | ⟨f, rfl, rfl⟩ := step_of_busy_move_cases busy hm h
  · exact .inl ((recordMove_runState s m rest).trans busy)
  · have hstate := (stepKeepsInv s t hi h).status.state_of_phase
    have hending := ha.ending (recordMove_inv m rest hi)
    rw [recordMove_eq] at hending
    obtain hbusy | ⟨hp, hby⟩ | ⟨hp, hby⟩ := hending
    · exact .inl (hstate.trans hbusy)
    · exact .inr (.inl ⟨hstate.trans (congrArg Phase.runState hp), hby⟩)
    · exact .inr (.inr (.inl ⟨hstate.trans (congrArg Phase.runState hp), hby⟩))
  · exact .inr (.inr (.inr ⟨rfl, f, rfl⟩))

end Sys2Proof.Machine
end

section
/-! PROOF. O17, O31 and O16: what ends a run, what `End` leaves of it, and that no host access changes it. -/

namespace Sys2Proof.Machine

/-- Settles O17: of the four ways of a run's step each gives its own STATE, and a host access none but BUSY. -/
theorem aRunEndsByCompletionErrorOrReset : Obligations.ARunEndsByCompletionErrorOrReset := by
  intro s t m rest hi hb hm h
  refine ⟨?_, ?_⟩
  · rintro a rfl
    obtain ⟨w, rfl⟩ := step_host_of_busy hm hb h
    exact hb
  · obtain hs | ⟨hs, hby⟩ | ⟨hs, hby⟩ | ⟨hs, hby⟩ := step_of_busy_ending hi hb hm h <;> rw [hs]
    · exact ⟨by rintro ⟨⟩, by rintro ⟨⟩, by rintro ⟨⟩⟩
    · exact ⟨fun _ => hby, by rintro ⟨⟩, by rintro ⟨⟩⟩
    · exact ⟨by rintro ⟨⟩, fun _ => hby, by rintro ⟨⟩⟩
    · exact ⟨by rintro ⟨⟩, by rintro ⟨⟩, fun _ => hby⟩

/-- The answers to a compress run that has seen `End` keep `eof_seen`, unless they end in ERROR (R349). -/
theorem AnswerStep.keeps_eof {u t : State} {m : Move} (h : AnswerStep u m (.next t)) (hi : Inv u)
    (he : u.phase.engine = some .compress) (heof : u.eofSeen = true) (hne : t.phase ≠ .error) :
    t.eofSeen = true := by
  generalize ho : Host.Outcome.next t = o at h
  cases h with
  | fillByte hp | fillEnd hp => cases heof.symm.trans ((hi.compress he).reading hp).2
  | groupByte =>
    obtain ⟨b, -, rfl⟩ | ⟨tok, -, hrun⟩ | ⟨-, rfl⟩ :=
      flushOn_ends_cases (Ran.outcome_keepNone_eq_next.mp ho.symm)
    · exact heof
    · exact (congrArg (fun side => side.2.2) hrun.inputSide_eq).trans heof
    · exact heof
  | truncated | readError | writeError => cases ho; exact absurd rfl hne
  | ctrlByte hp | literal hp | offsetByte hp => rcases hp with hp | hp <;> rw [hp] at he <;> cases he
  | lengthByte hp | cleanEnd hp | outputByte hp => rw [hp] at he; cases he

/-- A run in progress is at a program point of one of the engines (R284). -/
theorem engine_of_busy {p : Phase} (h : p.runState = .busy) : ∃ e, p.engine = some e := by
  cases p with
  | cRead | cWrite | dToken | dNeed | dWrite => exact ⟨_, rfl⟩
  | idle | done | error => cases h

/-- No answer leads out of a compress run into the other engine's (R270, R284). -/
theorem AnswerStep.stays_compress {u t : State} {m : Move} (h : AnswerStep u m (.next t))
    (he : u.phase.engine = some .compress) (hb : t.phase.runState = .busy) : t.phase.engine = some .compress := by
  obtain ⟨e, het⟩ := engine_of_busy hb
  cases e with
  | compress => exact het
  | decompress => cases he.symm.trans (h.engine_decompress het)

/-- Settles O31: `eof_seen` stays 1 over an answer, and the invariant allows no `InRead` with it. -/
theorem endIsFinalInACompressRun : Obligations.EndIsFinalInACompressRun := by
  intro s t hi he heof h hbusy
  have hit := stepKeepsInv s t hi h
  have hb : t.phase.runState = .busy := hit.status.state_of_phase.symm.trans hbusy
  obtain hidle | ⟨ms, w, rfl⟩ | ⟨m, rest, ha⟩ := step_of_busy_ways (runState_busy_of_engine hi he) h
  · rw [hidle] at hb
    cases hb
  · exact ⟨heof, hi.awaitsNoInput (hi.status.engine_of_mode _ he) heof⟩
  · have hu : (recordMove s m rest).phase.engine = some .compress := by simpa using he
    have hu_eof : (recordMove s m rest).eofSeen = true := by
      rw [recordMove_eq]
      exact heof
    have hne : t.phase ≠ .error := fun hp => by
      rw [hp] at hb
      cases hb
    have heof' := ha.keeps_eof (recordMove_inv m rest hi) hu hu_eof hne
    exact ⟨heof', hit.awaitsNoInput (hit.status.engine_of_mode _ (ha.stays_compress hu hb)) heof'⟩

/-- Settles O16: the recorded access and the word read are all that a host access leaves. -/
theorem hostAccessLeavesARunAlone : Obligations.HostAccessLeavesARunAlone := by
  intro s t a rest hb hm h
  obtain ⟨w, rfl⟩ := step_host_of_busy hm hb h
  rfl

end Sys2Proof.Machine
end

section
/-! SUPPORT. A stream and a longer one that begins with it are read alike, and what a decompress run that ended in
BAD_REFERENCE has read (spec/30_encoding.md R80; spec/46_decoder.md R246). -/

namespace Sys2Proof

/-- A stream that was read whole is its first form and the forms of what follows it (R80). -/
theorem decodeStreamFuel_of_form {fuel : Nat} {p : WirePos} {bs bs' : List Byte} {i : Instr} {is : List Instr}
    (hd : decodeWire p bs = .ok (i, bs')) (h : decodeStreamFuel fuel p bs = .ok is) :
    ∃ n js, fuel = n + 1 ∧ decodeStreamFuel n (p.after i) bs' = .ok js ∧ is = i :: js := by
  have hne : bs.isEmpty = false := by
    cases bs with
    | nil => cases hd
    | cons => rfl
  cases fuel with
  | zero =>
    rw [decodeStreamFuel, hne] at h
    cases h
  | succ n =>
    simp only [decodeStreamFuel, hne, hd, Bool.false_eq_true, if_false] at h
    split_ifs at h
    cases hrest : decodeStreamFuel n (p.after i) bs' with
    | error r => simp [hrest] at h
    | ok js =>
      rw [hrest] at h
      cases h
      exact ⟨n, js, rfl, hrest, rfl⟩

/-- A stream that goes on begins with the forms of its beginning (R80). -/
theorem decodeStreamFuel_append {fuel fuel' : Nat} {p : WirePos} {bs rest : List Byte} {is js : List Instr}
    (h : decodeStreamFuel fuel p bs = .ok is) (h' : decodeStreamFuel fuel' p (bs ++ rest) = .ok js) : is <+: js := by
  induction fuel generalizing fuel' p bs is js with
  | zero =>
    rw [decodeStreamFuel] at h
    split_ifs at h
    cases h
    exact List.nil_prefix
  | succ fuel ih =>
    cases hd : decodeWire p bs with
    | error r =>
      rw [decodeStreamFuel, hd] at h
      split_ifs at h
      cases h
      exact List.nil_prefix
    | ok form =>
      obtain ⟨i, bs'⟩ := form
      obtain ⟨w, he, hs, hbs⟩ := decodeWire_eq_ok.mp hd
      have hd' : decodeWire p (bs ++ rest) = .ok (i, bs' ++ rest) :=
        decodeWire_eq_ok.mpr ⟨w, he, hs, by rw [hbs, List.append_assoc]⟩
      obtain ⟨n, is', hn, hrest, rfl⟩ := decodeStreamFuel_of_form hd h
      obtain ⟨_, js', -, hrest', rfl⟩ := decodeStreamFuel_of_form hd' h'
      obtain rfl : fuel = n := Nat.succ.inj hn
      exact (List.prefix_cons_inj i).mpr (ih hrest hrest')

end Sys2Proof

namespace Sys2Proof.Machine

/-- What a stream stands for, once it may end, is what its forms stand for. -/
theorem StandsFor.decodes {bs : List Byte} {p : WirePos} {out : Option (List Byte)} (h : StandsFor bs p False out) :
    ∃ is, decodeStream bs = .ok is ∧ expandForms [] is = out := by
  obtain ⟨is, hread, hexp⟩ := h
  exact ⟨is, hread.decodeStream, hexp⟩

/-- A stream whose beginning stands for nothing stands for nothing (R246). -/
theorem expandForms_none_of_prefix {out : List Byte} {is js : List Instr} (h : expandForms out is = none)
    (hpre : is <+: js) : expandForms out js = none := by
  obtain ⟨ks, rfl⟩ := hpre
  rw [expandForms_append_forms, h]
  rfl

/-- A reference to before the first output byte stands for nothing (R246). -/
theorem expandForm_bref_of_before {off : Byte} {out : List Byte} (h : out.length < off.toNat + 1) (lm1 : Byte) :
    expandForm out (.bref off lm1) = none := by
  rw [expandForm, copyBytes, if_neg (Nat.not_le.mpr h)]

/-- With the length byte of a reference further back than `filled`, what a run has read stands for nothing (R246). -/
theorem DecompressRunOk.standsFor_none {s : State} {off : Byte} (h : DecompressRunOk s)
    (hp : s.phase = .dNeed (.lengthByte off)) (hoff : s.filled.val < off.toNat + 1) (lm1 : Byte) :
    ∃ p, StandsFor (s.inTaken ++ [lm1]) p False none := by
  have he : s.phase.engine = some .decompress := by rw [hp]; rfl
  obtain ⟨hsite, -⟩ | ⟨_, -, hslot, hk⟩ := (h.inv.decompress he).needing _ hp
  · cases hsite
  have hdecoded := h.decoded
  rw [decodedSoFar_of_phase hp] at hdecoded
  obtain ⟨bs, hbs, hstands⟩ := hdecoded
  change s.inTaken = bs ++ [off] at hbs
  have hbefore : s.outTaken.length < off.toNat + 1 := by
    have hfilled := (h.ring he).filled_eq
    have := off.isLt
    omega
  have hform := hstands.reference off lm1 (Nat.ne_of_lt hslot) hk
  rw [setPhase_outTaken, expandForm_bref_of_before hbefore, List.append_cons, ← hbs] at hform
  exact ⟨_, hform⟩

/-- A decompress run that ended in BAD_REFERENCE has read a stream that stands for nothing (R246, R305). -/
theorem standsFor_none_of_badReference {u : State} (h : RunOf .decompress u) (hbad : u.errClass = some .badReference) :
    ∃ p, StandsFor u.inTaken p False none := by
  cases h with
  | start s _ _ ready run =>
    cases (if_neg ready : exec (.cmdDecompress 0) s = _).symm.trans run
    cases hbad
  | step s _ prev busy next =>
    have hok := decompressRunOk_of_runOf prev
    have hu : u.runState = .error :=
      (stepKeepsInv s u hok.inv next).status.class_iff.mp (by rw [hbad]; rfl)
    rcases hm : s.moves with _ | ⟨m, rest⟩
    · cases (step_of_no_move hm).symm.trans next
      cases busy.symm.trans hu
    obtain ⟨-, -, herror, -⟩ := aRunEndsByCompletionErrorOrReset s u m rest hok.inv busy hm next
    obtain ⟨_, -, -, hc⟩ | ⟨_, _, -, -, hc⟩ | ⟨_, -, -, hc⟩ | ⟨off, lm1, rfl, hp, hoff, -⟩ := herror hu
    · cases hbad.symm.trans hc
    · cases hbad.symm.trans hc
    · cases hbad.symm.trans hc
    · obtain ⟨-, hin, -⟩ := streamsGrowByTheAnsweredByte s u _ rest busy hm (by simp) next
      exact hin ▸ hok.standsFor_none hp hoff lm1

end Sys2Proof.Machine
end

section
/-! PROOF. O60: decompressing what a compress run wrote gives its input back. -/

namespace Sys2Proof.Machine

/-- Settles O60: the output is a framing, which is read back as its own forms, and those stand for the input; so does
no stream with a reference to before its first byte. -/
theorem decompressUndoesCompress : Obligations.DecompressUndoesCompress := by
  intro t u ht htd hu
  obtain ⟨ts, hframed, hstands⟩ := compressRunFramesItsInput t ht htd
  have hback := framedStreamDecodesBack ts
  refine ⟨?_, fun hud hin => ?_⟩
  · rintro ⟨rest, hrest⟩ hbad
    obtain ⟨p, hnone⟩ := standsFor_none_of_badReference hu hbad
    obtain ⟨is, hdecoded, hexp⟩ := hnone.decodes
    rw [← hframed, ← hrest] at hback
    have hall := expandForms_none_of_prefix hexp (decodeStreamFuel_append hdecoded hback)
    cases hstands.symm.trans hall
  · obtain ⟨is, hdecoded, hexp⟩ := decompressRunDecodesItsInput u hu hud
    rw [hin, hframed, hback] at hdecoded
    cases hdecoded
    exact Option.some.inj (hexp.symm.trans hstands)

end Sys2Proof.Machine
end

section
/-! SUPPORT. The compress driver by its equations, run as an instruction on its own (spec/47_driver_and_host.md R271 to
R273). -/

namespace Sys2Proof.Machine

/-! ## The operations of one token, each on its own -/

/-- The value an operation kept before is no part of Policy's work (log 19). -/
theorem policy_withResult {o : Cursor} {len : Nat} {s u : State} {tok : TokReg}
    (h : policy o len s = .returned tok u) (r : Result) :
    policy o len { s with result := r } = .returned tok { u with result := r } := by
  have hshift : ∀ {n v}, shiftWindow n s = .ok v →
      shiftWindow n { s with result := r } = .ok { v with result := r } := by
    intro n v hv
    obtain ⟨hn, rfl⟩ := shiftWindow_eq_ok.mp hv
    exact shiftWindow_eq_ok.mpr ⟨hn, rfl⟩
  obtain ⟨s0, lit, h0, htest, ⟨hlit, rfl, v, hv, rfl⟩ | ⟨hlit, rfl, hu⟩⟩ := policy_eq_returned_iff.mp h
  · exact policy_eq_returned_iff.mpr ⟨s0, lit, h0, htest, .inl ⟨hlit, rfl, _, hshift hv, rfl⟩⟩
  · exact policy_eq_returned_iff.mpr ⟨s0, lit, h0, htest, .inr ⟨hlit, rfl, hshift hu⟩⟩

/-- A token made by the driver is made by BuildTable, Search and Policy run one after the other (R271, R273). -/
theorem exec_of_produceToken {s u : State} {tok : TokReg} (made : produceToken s = .returned tok u) :
    ∃ s1 s2 o len, exec .buildTable s = .next s1 ∧ exec .search s1 = .next s2 ∧ s2.result = .search o len ∧
      exec (.policy o len) s2 = .next { u with result := .policy tok } := by
  obtain ⟨t, o, len, ht, hfound, hpolicy⟩ := produceToken_eq_returned_iff.mp made
  refine ⟨{ s with t := t }, _, o, len, ?_, exec_search_of_findMatch hfound, rfl, ?_⟩
  · rw [exec, execBuildTable, buildTable, ht]
    rfl
  · rw [exec, execPolicy, policy_withResult hpolicy]
    rfl

/-! ## One pass of the loop -/

theorem exec_compressRun_eq (s : State) : exec .compressRun s = (compressFrom s).outcome keepNone := rfl

section
variable {s u : State} {tok : TokReg} {fuel : Nat}

/-- With a byte to code and none to wait for, a pass makes a token and gives it to Accept (R271). -/
theorem compressLoop_of_token (left : s.laSize ≠ 0) (filled : 256 ≤ s.laSize ∨ s.eofSeen = true)
    (made : produceToken s = .returned tok u) :
    compressLoop (fuel + 1) s = (accept tok u).andThen fun _ v => compressLoop fuel v := by
  have hfill : ∃ r, fill s = .returned r s := by
    obtain ⟨-, h⟩ | ⟨-, -, h⟩ | ⟨room, more, -⟩ := fill_cases s
    · exact ⟨_, h⟩
    · exact ⟨_, h⟩
    · simp [more, room.not_ge] at filled
  obtain ⟨r, hr⟩ := hfill
  rw [compressLoop, hr, Ran.andThen_returned, if_neg left, made, Ran.andThen_returned]

theorem compressLoop_of_room (room : s.laSize < 256) (more : s.eofSeen = false) :
    compressLoop (fuel + 1) s = .stops (setPhase .cRead s) := by
  rw [compressLoop, fill_of_room room more, Ran.andThen_stops]

/-- With nothing left after `End` a pass is Finish (R214, R271). -/
theorem compressLoop_of_drained (drained : s.laSize = 0) (eof : s.eofSeen = true) :
    compressLoop (fuel + 1) s = (finish s).andThen fun _ v => .returned () (endRun v) := by
  rw [compressLoop, fill_of_eof (by omega) eof, Ran.andThen_returned, if_pos drained]

end

/-- Where Accept returns, the window is as it was and the program point the driver's own (R210). -/
theorem accept_returned {tok : TokReg} {s v : State} (h : accept tok s = .returned () v) :
    v.laSize = s.laSize ∧ (WindowOk s → WindowOk v) ∧ (LiveWritten s → LiveWritten v) := by
  obtain ⟨-, ha⟩ | ⟨-, ha⟩ | ⟨-, -, ha⟩ := accept_cases tok s <;> cases ha.symm.trans h
  · exact ⟨rfl, fun hw => ⟨hw.dict_le, hw.la_le⟩, fun hl => hl⟩
  · exact ⟨rfl, fun hw => ⟨hw.dict_le, hw.la_le⟩, fun hl => hl⟩

/-- The loop's bound is never met, so the loop is the same under any bound that the lookahead fits (R196; log 17). -/
theorem compressLoop_bound_irrelevant {fuel fuel' : Nat} {s : State} (hw : WindowOk s) (hl : LiveWritten s)
    (hf : s.laSize < fuel) (hf' : s.laSize < fuel') : compressLoop fuel s = compressLoop fuel' s := by
  induction fuel generalizing fuel' s with
  | zero => omega
  | succ fuel ih =>
    obtain ⟨fuel', rfl⟩ : ∃ n, fuel' = n + 1 := ⟨fuel' - 1, by omega⟩
    by_cases hwait : s.laSize < 256 ∧ s.eofSeen = false
    · rw [compressLoop_of_room hwait.1 hwait.2, compressLoop_of_room hwait.1 hwait.2]
    have filled : 256 ≤ s.laSize ∨ s.eofSeen = true := by
      by_cases room : s.laSize < 256
      · exact .inr (by simpa [room] using hwait)
      · exact .inl (by omega)
    by_cases drained : s.laSize = 0
    · have eof := filled.resolve_left (by omega)
      rw [compressLoop_of_drained drained eof, compressLoop_of_drained drained eof]
    · obtain ⟨tok, u, made, hwu, hlu, hlt⟩ := produceToken_returns hw hl drained
      rw [compressLoop_of_token drained filled made, compressLoop_of_token drained filled made]
      cases ha : accept tok u with
      | stops | fault => rfl
      | returned _ v =>
        obtain ⟨hla, hwv, hlv⟩ := accept_returned ha
        exact ih (hwv hwu) (hlv hlu) (by omega) (by omega)

theorem compressLoop_eq_compressFrom {s : State} (hw : WindowOk s) (hl : LiveWritten s) {fuel : Nat}
    (hf : s.laSize < fuel) : compressLoop fuel s = compressFrom s :=
  compressLoop_bound_irrelevant hw hl hf (Nat.lt_succ_self _)

/-- One token of the driver, and the rest of its run (R271). -/
theorem exec_compressRun_of_token {s u : State} {tok : TokReg} (hw : WindowOk s) (hl : LiveWritten s)
    (left : s.laSize ≠ 0) (filled : 256 ≤ s.laSize ∨ s.eofSeen = true)
    (made : produceToken s = .returned tok u) :
    ∃ v, exec (.accept tok) u = .next v ∧
      exec .compressRun s = if s.n.val = 8 then .next v else exec .compressRun v := by
  obtain ⟨tok', u', made', hwu, hlu, hlt⟩ := produceToken_returns hw hl left
  cases made'.symm.trans made
  have hn := (produceToken_keeps_group made).1
  have hrun : exec .compressRun s = ((accept tok u).andThen fun _ v => compressLoop s.laSize v).outcome keepNone := by
    rw [exec_compressRun_eq, compressFrom, compressLoop_of_token left filled made]
  rw [hrun, exec, execAccept, ← hn]
  have hreturn : ∀ v, u.n.val ≠ 8 → accept tok u = .returned () v →
      ∃ w, (accept tok u).outcome keepNone = .next w ∧
        ((accept tok u).andThen fun _ v => compressLoop s.laSize v).outcome keepNone =
          if u.n.val = 8 then .next w else exec .compressRun w := by
    intro v hne ha
    obtain ⟨hla, hwv, hlv⟩ := accept_returned ha
    refine ⟨v, by rw [ha]; rfl, ?_⟩
    rw [ha, if_neg hne, Ran.andThen_returned, compressLoop_eq_compressFrom (hwv hwu) (hlv hlu) (by omega)]
    rfl
  obtain ⟨h0, ha⟩ | ⟨h8, ha⟩ | ⟨-, h8, ha⟩ := accept_cases tok u
  · exact hreturn _ (by omega) ha
  · rw [ha]
    exact ⟨_, rfl, (if_pos h8).symm⟩
  · exact hreturn _ (by omega) ha

end Sys2Proof.Machine
end

section
/-! PROOF. O43: the compress driver. -/

namespace Sys2Proof.Machine

/-- Settles O43: the driver's loop comes to an end within its bound, and each of its passes is its operations run one
after the other. -/
theorem compressRunComesToATransaction : Obligations.CompressRunComesToATransaction := by
  intro s hw hl
  refine ⟨?_, fun room more => ?_, fun hne filled => ?_,
    fun drained eof => ⟨fun empty => ?_, fun pending => ?_⟩⟩
  · obtain ⟨t, ht⟩ := compressFrom_ends hw hl
    exact ⟨t, Ran.outcome_keepNone_eq_next.mpr ht, (driverEnds_of_compressFrom ht).phase_cases⟩
  · rw [exec_compressRun_eq, compressFrom, compressLoop_of_room room more]
    rfl
  · have left : s.laSize ≠ 0 := Nat.ne_zero_of_lt hne
    obtain ⟨tok, u, made, -⟩ := produceToken_returns hw hl left
    obtain ⟨s1, s2, o, len, hbuild, hsearch, hpair, hpolicy⟩ := exec_of_produceToken made
    obtain ⟨s4, haccept, hrun⟩ := exec_compressRun_of_token hw hl left filled made
    have hresult : u.result = s.result := (congrArg State.result (produceToken_outsideCompress made) :)
    have hu : { u with result := s.result } = u := hresult ▸ rfl
    exact ⟨s1, s2, _, s4, o, len, tok, hbuild, hsearch, hpair, hpolicy, rfl, (congrArg _ hu).trans haccept, hrun⟩
  · rw [exec_compressRun_eq, compressFrom, compressLoop_of_drained drained eof]
    obtain ⟨-, hf⟩ | ⟨h1, -⟩ := finish_cases s
    · rw [hf]
      rfl
    · omega
  · rw [exec_compressRun_eq, compressFrom, compressLoop_of_drained drained eof, exec_finish_of_tokens pending]
    obtain ⟨h0, -⟩ | ⟨-, hf⟩ := finish_cases s
    · omega
    · rw [hf]
      rfl

end Sys2Proof.Machine
end

section
/-! SUPPORT. The host's words, bit by bit (spec/30_encoding.md R91, R92), and which accesses are answered
(spec/20_memory.md R66; spec/47_driver_and_host.md R276 to R281). -/

namespace Sys2Proof.Machine

/-! ## The words -/

theorem extractLsb'_one_eq_one_iff {w : Word} {k : Nat} : w.extractLsb' k 1 = 1 ↔ w.getLsbD k = true := by
  constructor
  · intro h
    simpa using congrArg (BitVec.getLsbD · 0) h
  · intro h
    ext i hi
    obtain rfl : i = 0 := by omega
    simpa using h

/-- START is bit 0 of a word written to CTRL (R91). -/
theorem decodeCtrlWrite_of_noStart {w : Word} (h : w.getLsbD 0 = false) :
    decodeCtrlWrite w = .cmdSetMode (w.extractLsb' 2 30) (w.extractLsb' 1 1) := by
  have hbit : w.extractLsb' 0 1 ≠ 1 := fun h1 => by
    cases h.symm.trans (extractLsb'_one_eq_one_iff.mp h1)
  rw [decodeCtrlWrite, if_neg hbit]

/-- MODE is bit 1 of a word written to CTRL (R91). -/
theorem engineOf_extract (w : Word) :
    engineOf (w.extractLsb' 1 1) = if w.getLsbD 1 then .decompress else .compress := by
  have hbit : ∀ m : BitVec 1, engineOf m = if m = 1 then .decompress else .compress := by decide
  rw [hbit]
  exact if_congr extractLsb'_one_eq_one_iff rfl rfl

/-- A STATUS word, bit by bit: STATE from bit 0, ERRCLASS from bit 4, ERRNO from bit 16 (R92). -/
theorem statusWord_getLsbD (e : Errno) (err : Option RunError) (r : RunState) (k : Nat) :
    (statusWord e err r).getLsbD k =
      if k < 4 then (stateCode r).getLsbD k
      else if k < 16 then (errCode err).getLsbD (k - 4) else e.getLsbD (k - 16) := by
  simp only [statusWord, BitVec.getLsbD_or, BitVec.getLsbD_shiftLeft, BitVec.getLsbD_setWidth]
  split_ifs with h4 h16
  · have h32 : k < 32 := by omega
    have h16 : k < 16 := by omega
    simp [h4, h16, h32]
  · have h32 : k < 32 := by omega
    have hst : (stateCode r).getLsbD k = false := BitVec.getLsbD_of_ge _ _ (by omega)
    have hshift : k - 4 < 32 := by omega
    simp [h4, h16, h32, hst, hshift]
  · have hst : (stateCode r).getLsbD k = false := BitVec.getLsbD_of_ge _ _ (by omega)
    have hcl : (errCode err).getLsbD (k - 4) = false := BitVec.getLsbD_of_ge _ _ (by omega)
    by_cases h32 : k < 32
    · have hshift : k - 16 < 32 := by omega
      simp [h16, h32, hst, hcl, hshift]
    · have he : e.getLsbD (k - 16) = false := BitVec.getLsbD_of_ge _ _ (by omega)
      simp [h32, he]

section
variable (e : Errno) (err : Option RunError) (r : RunState)

theorem statusWord_state : (statusWord e err r).extractLsb' 0 2 = stateCode r := by
  apply BitVec.eq_of_getLsbD_eq
  intro i hi
  have h4 : i < 4 := by omega
  rw [BitVec.getLsbD_extractLsb', Nat.zero_add, statusWord_getLsbD, if_pos h4, decide_eq_true hi, Bool.true_and]

theorem statusWord_errClass : (statusWord e err r).extractLsb' 4 4 = errCode err := by
  apply BitVec.eq_of_getLsbD_eq
  intro i hi
  have h4 : ¬ 4 + i < 4 := by omega
  have h16 : 4 + i < 16 := by omega
  rw [BitVec.getLsbD_extractLsb', statusWord_getLsbD, if_neg h4, if_pos h16, decide_eq_true hi, Bool.true_and,
    Nat.add_sub_cancel_left]

theorem statusWord_errno : (statusWord e err r).extractLsb' 16 16 = e := by
  apply BitVec.eq_of_getLsbD_eq
  intro i hi
  have h4 : ¬ 16 + i < 4 := by omega
  have h16 : ¬ 16 + i < 16 := by omega
  rw [BitVec.getLsbD_extractLsb', statusWord_getLsbD, if_neg h4, if_neg h16, decide_eq_true hi, Bool.true_and,
    Nat.add_sub_cancel_left]

/-- The reserved bits after STATE read 0 (R92). -/
theorem statusWord_reserved_low : (statusWord e err r).extractLsb' 2 2 = 0 := by
  apply BitVec.eq_of_getLsbD_eq
  intro i hi
  have h4 : 2 + i < 4 := by omega
  rw [BitVec.getLsbD_extractLsb', statusWord_getLsbD, if_pos h4, BitVec.getLsbD_of_ge _ _ (by omega), Bool.and_false]
  exact BitVec.getLsbD_zero.symm

/-- The reserved bits after ERRCLASS read 0 (R92). -/
theorem statusWord_reserved_high : (statusWord e err r).extractLsb' 8 8 = 0 := by
  apply BitVec.eq_of_getLsbD_eq
  intro i hi
  have h4 : ¬ 8 + i < 4 := by omega
  have h16 : 8 + i < 16 := by omega
  rw [BitVec.getLsbD_extractLsb', statusWord_getLsbD, if_neg h4, if_pos h16, BitVec.getLsbD_of_ge _ _ (by omega),
    Bool.and_false]
  exact BitVec.getLsbD_zero.symm

end

/-! ## The accesses -/

section
variable {s : State} {a : HostAccess} {rest : List Move}

/-- A host access that is an instruction is run (R94). -/
theorem step_host_of_ok {i : Instr} (hm : s.moves = .host a :: rest) (hd : decodeHost a = .ok i) :
    step s = exec i { s with moves := rest } := by
  rw [step_of_move hm, runMove, fetch, fetchHost, hd]
  rfl

/-- Any word written to CTRL is a command (R66, R91). -/
theorem decodeHost_ctrlWrite (w : Word) : decodeHost ⟨0, 4, .write w⟩ = .ok (decodeCtrlWrite w) := rfl

/-- A write of STATUS is ignored (R279). -/
theorem step_host_statusWrite {w : Word} (hm : s.moves = .host ⟨4, 4, .write w⟩ :: rest) :
    step s = .next { s with moves := rest } := step_of_move hm

/-- An access that is no whole word, or at another offset, is refused (R66, R280). -/
theorem step_host_refused (hm : s.moves = .host a :: rest)
    (h : ¬ (a.size = 4 ∧ (a.offset = 0 ∨ a.offset = 4))) : ∃ why, step s = .refused (.rejected why) := by
  have hd : decodeHost a = .error .notAWord ∨ decodeHost a = .error .noSuchRegister := by
    unfold decodeHost
    by_cases hsize : a.size = 4
    · have hoffset : a.offset ≠ 0 ∧ a.offset ≠ 4 := by simpa [hsize] using h
      exact .inr (by rw [if_neg (by simpa using hsize), if_neg hoffset.1, if_neg hoffset.2])
    · exact .inl (if_pos hsize)
  rw [step_of_move hm, runMove, fetch, fetchHost]
  obtain hd | hd := hd <;> rw [hd] <;> exact ⟨_, rfl⟩

end

/-! ## The commands -/

section
variable {s : State}

/-- Start, and the first `InRead` of Fill (R281). -/
theorem exec_cmdCompress_of_ready (ready : s.runState ≠ .busy) (r : BitVec 30) :
    exec (.cmdCompress r) s = .next (setPhase .cRead (startRun .compress s)) := by
  have room : (startRun .compress s).laSize < 256 := by simp
  have hrun : compressFrom (startRun .compress s) = .stops (setPhase .cRead (startRun .compress s)) :=
    compressLoop_of_room room rfl
  rw [exec, execCmdCompress, unlessBusy, if_neg ready, hrun]
  rfl

/-- Start, and the first `InRead` of a token (R281). -/
theorem exec_cmdDecompress_of_ready (ready : s.runState ≠ .busy) (r : BitVec 30) :
    exec (.cmdDecompress r) s = .next (setPhase .dToken (startRun .decompress s)) := if_neg ready

theorem exec_cmdSetMode_of_ready (ready : s.runState ≠ .busy) (r : BitVec 30) (m : BitVec 1) :
    exec (.cmdSetMode r m) s = .next { s with mode := engineOf m } := if_neg ready

/-- Every command is answered, in every state (R276, R277, R281). -/
theorem exec_decodeCtrlWrite_answers (w : Word) (s : State) : ∃ t, exec (decodeCtrlWrite w) s = .next t := by
  by_cases busy : s.runState = .busy
  · exact ⟨s, exec_decodeCtrlWrite_of_busy w busy⟩
  · obtain ⟨r, h | h | ⟨m, h⟩⟩ := decodeCtrlWrite_cases w <;> rw [h]
    · exact ⟨_, exec_cmdCompress_of_ready busy r⟩
    · exact ⟨_, exec_cmdDecompress_of_ready busy r⟩
    · exact ⟨_, exec_cmdSetMode_of_ready busy r m⟩

end

end Sys2Proof.Machine
end

section
/-! PROOF. O10 to O15: the host registers. -/

namespace Sys2Proof.Machine

/-- Settles O10: the run-start column, and each engine's first transaction. -/
theorem startWritesTheRunStartColumn : Obligations.StartWritesTheRunStartColumn :=
  fun r _ ready => ⟨exec_cmdCompress_of_ready ready r, exec_cmdDecompress_of_ready ready r⟩

/-- Settles O11: a word without START is the command that writes MODE. -/
theorem setModeChangesOnlyMode : Obligations.SetModeChangesOnlyMode := by
  refine ⟨fun r m s ready => exec_cmdSetMode_of_ready ready r m, fun w s rest ready hstart hm => ?_⟩
  rw [step_host_of_ok hm (decodeHost_ctrlWrite w), decodeCtrlWrite_of_noStart hstart,
    exec_cmdSetMode_of_ready (s := { s with moves := rest }) ready, engineOf_extract]

/-- Settles O12: each command's effect is guarded by STATE. -/
theorem ctrlWriteWhileBusyHasNoEffect : Obligations.CtrlWriteWhileBusyHasNoEffect := by
  refine ⟨fun r m s busy => ⟨if_pos busy, if_pos busy, if_pos busy⟩, fun w s rest busy hm => ?_⟩
  rw [step_host_of_ok hm (decodeHost_ctrlWrite w)]
  exact exec_decodeCtrlWrite_of_busy w busy

/-- Settles O13: the word of each mode. -/
theorem ctrlReadReturnsMode : Obligations.CtrlReadReturnsMode := by
  intro s
  have hword : ctrlReadWord s.mode = match s.mode with | .compress => 0x00000000 | .decompress => 0x00000002 := by
    cases s.mode <;> decide
  exact congrArg (fun w => Host.Outcome.next { s with hostData := some w }) hword

/-- Settles O14: the fields of the word read, each in its bits; a write of STATUS is no instruction. -/
theorem statusReadReturnsTheFields : Obligations.StatusReadReturnsTheFields := by
  refine ⟨fun s => ⟨statusWord s.errno s.errClass s.runState, rfl, ?_, statusWord_reserved_low _ _ _, ?_,
    statusWord_reserved_high _ _ _, statusWord_errno _ _ _⟩, fun s w rest hm => step_host_statusWrite hm⟩
  · rw [statusWord_state]
    cases s.runState <;> rfl
  · rw [statusWord_errClass]
    rcases s.errClass with _ | _ | _ | _ | _ <;> rfl

/-- Settles O15: a whole word at one of the two offsets is a read, a command or an ignored write; any other access is
decoded to a refusal. -/
theorem onlyWholeWordAccessesAreAnswered : Obligations.OnlyWholeWordAccessesAreAnswered := by
  intro s a rest hm
  refine ⟨?_, step_host_refused hm⟩
  obtain ⟨offset, size, dir⟩ := a
  rintro ⟨hsize, hoffset⟩
  obtain rfl : size = 4 := hsize
  obtain rfl | rfl : offset = 0 ∨ offset = 4 := hoffset
  · cases dir with
    | read => exact ⟨_, step_host_of_ok (i := .rdCtrl) hm rfl⟩
    | write w =>
      rw [step_host_of_ok hm (decodeHost_ctrlWrite w)]
      exact exec_decodeCtrlWrite_answers w _
  · cases dir with
    | read => exact ⟨_, step_host_of_ok (i := .rdStatus) hm rfl⟩
    | write w => exact ⟨_, step_host_statusWrite hm⟩

end Sys2Proof.Machine
end

section
/-! PROOF. O19 to O23 and O47: resets and errors. -/

namespace Sys2Proof.Machine

/-- Settles O19: a reset writes the reset column whatever the state was. -/
theorem resetGivesTheResetColumn : Obligations.ResetGivesTheResetColumn := by
  intro f s
  exact ⟨hardReset (settleInflight f s), rfl, rfl, rfl, rfl, rfl, rfl, rfl, rfl, rfl, rfl, rfl, rfl, rfl, rfl, rfl, rfl,
    rfl, rfl, rfl, rfl⟩

/-- The streams after a reset are those the platform settled (R341). -/
theorem exec_reset_streams {f : Inflight} {s t : State} (h : exec (.reset f) s = .next t) :
    t.inTaken = (if s.phase.awaitsInput then s.inTaken ++ f.inByte.toList else s.inTaken) ∧
    t.outTaken = if f.outDelivered then s.outTaken ++ s.phase.offers.toList else s.outTaken := by
  cases h
  exact ⟨rfl, rfl⟩

/-- Settles O20: the two streams by what the platform did with the outstanding transaction. -/
theorem resetWritesNoOutput : Obligations.ResetWritesNoOutput := by
  intro f s t h
  obtain ⟨hin, hout⟩ := exec_reset_streams h
  rw [hin, hout]
  refine ⟨fun hno => ?_, fun hnone => ?_, fun b hb hyes => ?_, fun hno => ?_, fun hnone => ?_⟩
  · rw [hno]
    rfl
  · rw [hnone, Option.toList_none, List.append_nil, ite_self]
  · rw [hb, if_pos hyes]
    rfl
  · rw [hno]
    rfl
  · rw [hnone, Option.toList_none, List.append_nil, ite_self]

/-- Settles O21: `raiseError` completes for every class, with a number that is never 0. -/
theorem abortRecordsTheError : Obligations.AbortRecordsTheError := by
  intro err e s
  refine ⟨raiseError err e s, rfl, rfl, ?_, recordedErrno_ne_zero err e, rfl, rfl, rfl, rfl, rfl, rfl, rfl, rfl, rfl,
    rfl⟩
  cases err <;> rfl

/-- Settles O22: of the ways to answer an `InRead`, `Err` leaves READ_ERROR, with no byte recorded. -/
theorem readErrorAbortsTheRun : Obligations.ReadErrorAbortsTheRun := by
  intro s e rest hp hm
  have ha := answerStep_input hm hp
  generalize step s = o at ha
  cases ha with
  | readError => exact ⟨_, rfl, rfl, rfl, rfl, rfl, rfl, rfl, rfl⟩

/-- Settles O23: of the ways to answer an `OutWrite`, `Err` leaves WRITE_ERROR, with no byte recorded. -/
theorem writeErrorAbortsTheRun : Obligations.WriteErrorAbortsTheRun := by
  intro s b e rest ho hm
  have ha := answerStep_output hm ho
  generalize step s = o at ha
  cases ha with
  | writeError => exact ⟨_, rfl, rfl, rfl, rfl, rfl, rfl, rfl, rfl⟩

theorem copy_of_before {off : Byte} {s : State} (h : s.filled.val < off.toNat + 1) (lm1 : Byte) :
    copy off lm1 s = .stops (raiseError .badReference Config.genericIoError s) := if_pos h

/-- Settles O47: Copy and BREF are the same operation, whose check comes before its first byte. -/
theorem referenceBeforeTheOutputIsAnError : Obligations.ReferenceBeforeTheOutputIsAnError := by
  intro off lm1 s hoff i hi
  have hcopy := congrArg (Ran.outcome · keepNone) (copy_of_before hoff lm1)
  rcases hi with rfl | rfl <;> exact ⟨_, hcopy, rfl, rfl, rfl, rfl, rfl, rfl⟩

end Sys2Proof.Machine
end
